-- ==== Sys2Proof/Word.lean ====
section
/-!
DEFINITION. The widths of P2FRAME's quantities (00_scope.md R9, R10, R12). Every multi-byte helper that a later
repair could have to mend stands in Sys2Proof/Decode.lean or under Sys2Proof/Machine/, not here.
-/

namespace Sys2Proof

/-- A byte, "an unsigned integer 0 to 255" (R12). -/
abbrev Byte := BitVec 8

/-- The checksum and the 16-bit counts (R25, R10). -/
abbrev Word16 := BitVec 16

/-- Durations in milliseconds and the 32-bit counters (R10, R36). -/
abbrev Word32 := BitVec 32

/-- The timestamp register and a `RDREG` result (R39, R42). -/
abbrev Word64 := BitVec 64

/-- A byte string (R12): the bytes in wire order, the first sent first. -/
abbrev Bytes := List Byte

/-- A character string of the block, as the ASCII code of each character (R13's `hex`, R98's HexDigits payload). -/
abbrev Ascii := List Byte

end Sys2Proof
end

