-- ==== Sys2Proof/Config.lean ====
section
/-!
DEFINITION. What the spec fixes for every P2FRAME (00_scope.md R9, R11) and what it leaves to the platform (R11, R45):
the latter are constants without a body, so that nothing in Lean can evaluate them or prove a value of them.
-/

namespace Sys2Proof.Config

/-- `HDR_LEN`: the length of a well-formed header (R9). -/
def hdrLen : Nat := 2

/-- `SIZE_LEN`: the bytes of the size field (R9). -/
def sizeLen : Nat := 1

/-- `CSUM_LEN`: the bytes of the checksum field (R9). -/
def csumLen : Nat := 2

/-- `CSUM_MOD`: the checksum modulus (R9). -/
def csumMod : Nat := 65536

/-- `HDR_MAX`: the largest header a frame register holds (R11, R21). -/
def hdrMax : Nat := 255

/-- `DATA_MAX`: the largest data field a frame register holds (R11, R23). -/
def dataMax : Nat := 255

/-- `RXBUF_CAP`: the capacity of the RX burst buffer (R11, R43). -/
def rxbufCap : Nat := 261

/-- `FRAME_END`: the outbound terminator (R9, R93). -/
def frameEnd : Byte := 0x0D#8

/-- `READ_BUDGET` in milliseconds (R9, R34). -/
def readBudget : Word32 := 10000#32

/-- `READ_GRANULE` in milliseconds (R9, R34). -/
def readGranule : Word32 := 10#32

/-- `P2_COUNT`: the probes of phase 2 (R9, R201). -/
def p2Count : Nat := 33

/-- `P2_SPACING` in milliseconds (R9, R201). -/
def p2Spacing : Word32 := 150#32

/-- `P4_WAIT` in milliseconds (R9, R204). -/
def p4Wait : Word32 := 3000#32

/-- `P4_MAX`: the attempts of phase 4 (R9, R206). -/
def p4Max : Nat := 20

/-- The line setting's rate in baud (R9, R285). -/
def lineBaud : Nat := 9600

/-- The number of register numbers `RDREG` reads (R42). -/
def numRegisters : Nat := 27

/-- The parameter `decode_fields` (R11, D36, U10): telemetry data bytes to a list of integers. The spec leaves the
layout open; this is a free value, one function of the bytes about which nothing is assumed [log 1]. -/
opaque decodeFields : Bytes → List Int

/-- The parameter `to_epoch` (R11, D37, U11): year, month, day, hour, minute, second to the seconds that `SEQ.TS`
holds, or none for a date it rejects. A free value [log 1]. -/
opaque toEpoch : Nat → Nat → Nat → Nat → Nat → Nat → Option Word64

/-- `Now()` (R284, D38, U15): the value the local clock gives at its `n`-th sampling. A free value [log 2]. -/
opaque now : Nat → Int

end Sys2Proof.Config
end

