-- ==== Sys2Proof/Syntax.lean ====
section
/-!
DEFINITION. The instructions of P2FRAME, one constructor per row of spec/opcode_table.json (30_encoding.md R99, R107;
43_wire_frames.md R240 to R256), and the closed enumerations their operands and their positions are made of.
-/

namespace Sys2Proof

/-- The frame-select operand `fs` (10_state.md R20). -/
inductive FrameSel where
  | txf
  | rxf
deriving DecidableEq, Repr, Inhabited

/-- The four representations, in the order of their tags 0 to 3 (30_encoding.md R96). -/
inductive Fmt where
  | integer
  | rawBytes
  | hexDigits
  | integerList
deriving DecidableEq, Repr, Inhabited

/-- The `user` operand, in the order of its values 0 to 3 (10_state.md R35). -/
inductive User where
  | plumber
  | normal
  | normalAlt
  | service
deriving DecidableEq, Repr, Inhabited

/-- A repr operand: a tag and a payload of at most 65535 bytes (30_encoding.md R98). -/
structure Operand where
  tag : Fmt
  payload : Bytes
deriving DecidableEq, Repr, Inhabited

/-- A header of one or two bytes: what `SEQ.PROBE_HDR` holds, and `SEQ.LAST_HDR` when it is set (10_state.md R37). -/
structure Hdr where
  first : Byte
  second : Option Byte
deriving DecidableEq, Repr, Inhabited

/-- `SEQ.STAGE`, in the order of its encodings 0 to 4 (10_state.md R30). -/
inductive Stage where
  | preinit
  | login
  | init
  | postInit
  | xchg
deriving DecidableEq, Repr, Inhabited

/-- `SEQ.UPC`, the eighteen micro-states in the order of their encodings 0 to 17 (10_state.md R31). -/
inductive Upc where
  | idle
  | authSend
  | authRead
  | authSleep
  | p1Send
  | p1Read
  | p2Send
  | p2Check
  | p2Wait
  | p3Send
  | p3Read
  | p4Wait
  | p4Send
  | p4Read
  | xSend
  | xRead
  | xSleep
  | halt
deriving DecidableEq, Repr, Inhabited

/-- One constructor per row of spec/opcode_table.json. A host operation's operands are those of 30_encoding.md R98. A
wire request is the frame of 43_wire_frames.md that the sequencer sends; only `ECHO_PROBE` has free header bytes. A
reply class is told by the two header bytes of the reply; its operands are the bits the class leaves free. -/
inductive Instr where
  | fnew (fs : FrameSel)
  | setHeader (fs : FrameSel) (verify : Bool) (r : Operand)
  | setDataSize (fs : FrameSel) (verify : Bool) (r : Operand)
  | setData (fs : FrameSel) (verify : Bool) (r : Operand)
  | setChecksum (fs : FrameSel)
  | setChecksumV (fs : FrameSel) (verify : Bool) (r : Operand)
  | prepare (fs : FrameSel) (header : Option Operand) (data : Option Operand)
  | getHeader (fs : FrameSel) (fmt : Fmt)
  | getData (fs : FrameSel) (fmt : Fmt)
  | getDataSize (fs : FrameSel) (fmt : Fmt)
  | getChecksum (fs : FrameSel) (fmt : Fmt)
  | getRaw (fs : FrameSel)
  | getHex (fs : FrameSel)
  | openPort
  | write (fs : FrameSel)
  | read
  | closePort
  | pollRx
  | runAuth (user : User) (maxRetry : Word16) (retryWait : Word32)
  | runInit
  | readData (ufc : Bool) (sinks : BitVec 3) (pollInterval : Word32)
  | stop
  | rdReg (idx : Byte)
  | raPlumber
  | raNormal
  | raNormalAlt
  | raService
  | maProbe
  | m2Probe
  | rbAck
  | m1Req
  | m2Req
  | m3Req
  | echoProbe (first : Byte) (second : Option Byte)
  | rspMDigit (digit : BitVec 4)
  | rspM1
  | rspM2
  | rspM3
  | rspOther (first second : Byte)
  | rspAuth (first second : Byte)
deriving DecidableEq, Repr, Inhabited

/-- The three kinds of row of spec/opcode_table.json (30_encoding.md R107). -/
inductive InstrKind where
  | hostOperation
  | wireRequest
  | wireReplyClass
deriving DecidableEq, Repr

end Sys2Proof
end

