-- ==== Sys2Proof/WellFormed.lean ====
section
/-!
DEFINITION. Which terms of `Instr` are encodings of an operation: the bounds of 30_encoding.md R98, R101 and R102 that
the types do not already hold, and the one overlap of the request frames (43_wire_frames.md R244, R250).
-/

namespace Sys2Proof

/-- A repr operand's two-byte `len` counts its payload (30_encoding.md R98). -/
def Operand.wf (r : Operand) : Bool := r.payload.length < 65536

/-- An absent operand of `PREPARE` is well formed. -/
def Operand.optWf : Option Operand → Bool
  | none => true
  | some r => r.wf

/-- The header of `MA_PROBE` (43_wire_frames.md R244). -/
def maHeader : Hdr := ⟨0x4D#8, some 0x41#8⟩

/-- An instruction is well formed when every repr operand fits its length field (R98), a register number is assigned
(R102), and an echo probe is not the frame that is `MA_PROBE`'s own row (R244, R250) [log 13]. -/
def Instr.wf : Instr → Bool
  | .setHeader _ _ r => r.wf
  | .setDataSize _ _ r => r.wf
  | .setData _ _ r => r.wf
  | .setChecksumV _ _ r => r.wf
  | .prepare _ h d => Operand.optWf h && Operand.optWf d
  | .rdReg idx => idx.toNat < Config.numRegisters
  | .echoProbe p q => (⟨p, q⟩ : Hdr) ≠ maHeader
  | .fnew _ => true
  | .setChecksum _ => true
  | .getHeader _ _ => true
  | .getData _ _ => true
  | .getDataSize _ _ => true
  | .getChecksum _ _ => true
  | .getRaw _ => true
  | .getHex _ => true
  | .openPort => true
  | .write _ => true
  | .read => true
  | .closePort => true
  | .pollRx => true
  | .runAuth _ _ _ => true
  | .runInit => true
  | .readData _ _ _ => true
  | .stop => true
  | .raPlumber => true
  | .raNormal => true
  | .raNormalAlt => true
  | .raService => true
  | .maProbe => true
  | .m2Probe => true
  | .rbAck => true
  | .m1Req => true
  | .m2Req => true
  | .m3Req => true
  | .rspMDigit _ => true
  | .rspM1 => true
  | .rspM2 => true
  | .rspM3 => true
  | .rspOther _ _ => true
  | .rspAuth _ _ => true

end Sys2Proof
end

