-- ==== Sys2Proof/Decode.lean ====
section
/-!
DEFINITION. Reading and writing the encodings: byte order (20_memory.md R70), host commands (30_encoding.md R98 to R102),
request frames and reply headers (43_wire_frames.md R240 to R256, 30_encoding.md R107), the rows of spec/opcode_table.json,
and the word numbering of that table. The decoder is total and rejects by name; the encoder stands after it.
-/

namespace Sys2Proof

/-! ### Byte order and bit fields -/

/-- `be16` (00_scope.md R13): most significant byte first. -/
def be16 (v : Word16) : Bytes := [v.extractLsb' 8 8, v.extractLsb' 0 8]

/-- The four bytes of a 32-bit operand, most significant first (30_encoding.md R98). -/
def be32 (v : Word32) : Bytes :=
  [v.extractLsb' 24 8, v.extractLsb' 16 8, v.extractLsb' 8 8, v.extractLsb' 0 8]

/-- The eight bytes of a `RDREG` result, most significant first (42_sequencer.md R231). -/
def be64 (v : Word64) : Bytes := be32 (v.extractLsb' 32 32) ++ be32 (v.extractLsb' 0 32)

/-- `256 * p + q` of two bytes (30_encoding.md R92). -/
def join16 (p q : Byte) : Word16 := p ++ q

/-- Four bytes, most significant first, as one 32-bit quantity (30_encoding.md R98). -/
def join32 (a b c d : Byte) : Word32 := a ++ b ++ c ++ d

/-- `unbe` (00_scope.md R13): the unsigned integer whose big-endian bytes are `s`; 0 for the empty string. -/
def unbe (s : Bytes) : Nat := s.foldl (fun acc b => acc * 256 + b.toNat) 0

/-- The `n` bytes of a number, most significant first: the order in which spec/opcode_table.json writes the wire rows
(30_encoding.md R107). -/
def bytesOf : Nat → Nat → Bytes
  | 0, _ => []
  | n + 1, w => BitVec.ofNat 8 (w / 256 ^ n) :: bytesOf n w

/-! ### Encodings of the enumerations -/

/-- `fs` (30_encoding.md R98). -/
def FrameSel.code : FrameSel → Byte
  | .txf => 0#8
  | .rxf => 1#8

/-- A representation's tag (30_encoding.md R96). -/
def Fmt.code : Fmt → Byte
  | .integer => 0#8
  | .rawBytes => 1#8
  | .hexDigits => 2#8
  | .integerList => 3#8

/-- `user` (10_state.md R35). -/
def User.code : User → BitVec 2
  | .plumber => 0#2
  | .normal => 1#2
  | .normalAlt => 2#2
  | .service => 3#2

/-- `SEQ.STAGE` (10_state.md R30). -/
def Stage.code : Stage → BitVec 3
  | .preinit => 0#3
  | .login => 1#3
  | .init => 2#3
  | .postInit => 3#3
  | .xchg => 4#3

/-- `SEQ.UPC` (10_state.md R31). -/
def Upc.code : Upc → BitVec 5
  | .idle => 0#5
  | .authSend => 1#5
  | .authRead => 2#5
  | .authSleep => 3#5
  | .p1Send => 4#5
  | .p1Read => 5#5
  | .p2Send => 6#5
  | .p2Check => 7#5
  | .p2Wait => 8#5
  | .p3Send => 9#5
  | .p3Read => 10#5
  | .p4Wait => 11#5
  | .p4Send => 12#5
  | .p4Read => 13#5
  | .xSend => 14#5
  | .xRead => 15#5
  | .xSleep => 16#5
  | .halt => 17#5

/-- The bytes of a one- or two-byte header (10_state.md R37). -/
def Hdr.bytes (h : Hdr) : Bytes := h.first :: h.second.toList

/-- The header register's value for the header bytes of a received frame: the first two of them (10_state.md R37). -/
def Hdr.ofBytes : Bytes → Option Hdr
  | [] => none
  | [p] => some ⟨p, none⟩
  | p :: q :: _ => some ⟨p, some q⟩

/-! ### Why a byte string is rejected -/

/-- The names of the decoder's rejections. On the host channel every one of them is the response `ILLEGAL`
(30_encoding.md R101, R102); on the line `noRequest` and `noReply` say that no row fits the bytes at that position. -/
inductive DecodeError where
  /-- An empty command. -/
  | empty
  /-- An unassigned opcode (R102). -/
  | opcode (b : Byte)
  /-- `fs` above 1 (R101). -/
  | frameSelect (b : Byte)
  /-- `fmt` above 3 (R101). -/
  | format (b : Byte)
  /-- `user` above 3 (R101). -/
  | user (b : Byte)
  /-- A nonzero must-be-zero bit (R101). -/
  | mustBeZero (b : Byte)
  /-- A repr `tag` above 3 (R101). -/
  | reprTag (b : Byte)
  /-- A repr `len` that runs past the command (R101). -/
  | reprLength
  /-- A register number 27 to 255 (R102). -/
  | register (b : Byte)
  /-- The command ends before its operands do [log 10]. -/
  | truncated
  /-- Bytes after the command's last operand [log 10]. -/
  | trailing
  /-- No request frame of this position has these bytes. -/
  | noRequest
  /-- No reply class is recognised at this position, or the header has not two bytes. -/
  | noReply
deriving DecidableEq, Repr

/-! ### Host commands: operand fields -/

def parseFs (b : Byte) : Except DecodeError FrameSel :=
  if b = 0#8 then .ok .txf else if b = 1#8 then .ok .rxf else .error (.frameSelect b)

/-- A representation by its tag; none for a value above 3. -/
def Fmt.ofCode (b : Byte) : Option Fmt :=
  if b = 0#8 then some .integer
  else if b = 1#8 then some .rawBytes
  else if b = 2#8 then some .hexDigits
  else if b = 3#8 then some .integerList
  else none

def parseFmt (b : Byte) : Except DecodeError Fmt :=
  match Fmt.ofCode b with
  | some f => .ok f
  | none => .error (.format b)

def parseUser (b : Byte) : Except DecodeError User :=
  if b = 0#8 then .ok .plumber
  else if b = 1#8 then .ok .normal
  else if b = 2#8 then .ok .normalAlt
  else if b = 3#8 then .ok .service
  else .error (.user b)

/-- C3 `flags`: bit 0 is `verify`, bits 7:1 must be 0 (R98). -/
def parseVerify (b : Byte) : Except DecodeError Bool :=
  if b = 0#8 then .ok false else if b = 1#8 then .ok true else .error (.mustBeZero b)

/-- A repr operand at the head of a byte string, and the bytes after it (R98). -/
def parseOperand : Bytes → Except DecodeError (Operand × Bytes)
  | t :: hi :: lo :: rest =>
    match Fmt.ofCode t with
    | none => .error (.reprTag t)
    | some tag =>
      if rest.length < (join16 hi lo).toNat then .error .reprLength
      else .ok (⟨tag, rest.take (join16 hi lo).toNat⟩, rest.drop (join16 hi lo).toNat)
  | _ => .error .truncated

/-- A repr operand that is there only when its `pmask` bit is set (R98, format C4). -/
def parseOptional (present : Bool) (bs : Bytes) : Except DecodeError (Option Operand × Bytes) :=
  if present then
    match parseOperand bs with
    | .ok (r, rest) => .ok (some r, rest)
    | .error e => .error e
  else .ok (none, bs)

/-! ### Host commands: the formats C0 to C7 (30_encoding.md R98) -/

/-- The instruction, if no byte follows its operands. -/
def finish (i : Instr) : Bytes → Except DecodeError Instr
  | [] => .ok i
  | _ :: _ => .error .trailing

def parseC1 (mk : FrameSel → Instr) : Bytes → Except DecodeError Instr
  | a :: rest => do
    let fs ← parseFs a
    finish (mk fs) rest
  | [] => .error .truncated

def parseC2 (mk : FrameSel → Fmt → Instr) : Bytes → Except DecodeError Instr
  | a :: b :: rest => do
    let fs ← parseFs a
    let fmt ← parseFmt b
    finish (mk fs fmt) rest
  | _ => .error .truncated

def parseC3 (mk : FrameSel → Bool → Operand → Instr) : Bytes → Except DecodeError Instr
  | a :: b :: rest => do
    let fs ← parseFs a
    let verify ← parseVerify b
    let (r, tail) ← parseOperand rest
    finish (mk fs verify r) tail
  | _ => .error .truncated

def parseC4 (mk : FrameSel → Option Operand → Option Operand → Instr) : Bytes → Except DecodeError Instr
  | a :: b :: rest => do
    let fs ← parseFs a
    if 4 ≤ b.toNat then .error (.mustBeZero b)
    else
      let (h, rest1) ← parseOptional (b.getLsbD 0) rest
      let (d, rest2) ← parseOptional (b.getLsbD 1) rest1
      finish (mk fs h d) rest2
  | _ => .error .truncated

def parseC5 (mk : User → Word16 → Word32 → Instr) : Bytes → Except DecodeError Instr
  | u :: m1 :: m0 :: w3 :: w2 :: w1 :: w0 :: rest => do
    let user ← parseUser u
    finish (mk user (join16 m1 m0) (join32 w3 w2 w1 w0)) rest
  | _ => .error .truncated

def parseC6 (mk : Bool → BitVec 3 → Word32 → Instr) : Bytes → Except DecodeError Instr
  | f :: p3 :: p2 :: p1 :: p0 :: rest =>
    if 16 ≤ f.toNat then .error (.mustBeZero f)
    else finish (mk (f.getLsbD 0) (f.extractLsb' 1 3) (join32 p3 p2 p1 p0)) rest
  | _ => .error .truncated

def parseC7 (mk : Byte → Instr) : Bytes → Except DecodeError Instr
  | i :: rest => if i.toNat < Config.numRegisters then finish (mk i) rest else .error (.register i)
  | [] => .error .truncated

/-- A host command (30_encoding.md R98, R99): the opcode byte, then exactly its operands. -/
def decodeHost : Bytes → Except DecodeError Instr
  | [] => .error .empty
  | op :: bs =>
    match op.toNat with
    | 0x01 => parseC1 .fnew bs
    | 0x02 => parseC3 .setHeader bs
    | 0x03 => parseC3 .setDataSize bs
    | 0x04 => parseC3 .setData bs
    | 0x05 => parseC1 .setChecksum bs
    | 0x06 => parseC3 .setChecksumV bs
    | 0x07 => parseC4 .prepare bs
    | 0x08 => parseC2 .getHeader bs
    | 0x09 => parseC2 .getData bs
    | 0x0A => parseC2 .getDataSize bs
    | 0x0B => parseC2 .getChecksum bs
    | 0x0C => parseC1 .getRaw bs
    | 0x0D => parseC1 .getHex bs
    | 0x10 => finish .openPort bs
    | 0x11 => parseC1 .write bs
    | 0x12 => finish .read bs
    | 0x13 => finish .closePort bs
    | 0x14 => finish .pollRx bs
    | 0x20 => parseC5 .runAuth bs
    | 0x21 => finish .runInit bs
    | 0x22 => parseC6 .readData bs
    | 0x23 => finish .stop bs
    | 0x30 => parseC7 .rdReg bs
    | _ => .error (.opcode op)

/-! ### The line: request frames by position, reply classes by position -/

/-- An echo probe of header `[p, q]` or `[p]`, which is the row `MA_PROBE` when the header is that row's
(43_wire_frames.md R244, R250) [log 13]. -/
def probe (h : Hdr) : Instr := if h = maHeader then .maProbe else .echoProbe h.first h.second

/-- The bytes the phase-1 probes have on the line, the checksum being a free field of the row (30_encoding.md R107). -/
def decodeEcho : Bytes → Except DecodeError Instr
  | [p, q, s, d, _, _, e] =>
    if s = 0x01#8 ∧ d = 0x01#8 ∧ e = Config.frameEnd ∧ (⟨p, some q⟩ : Hdr) ≠ maHeader
    then .ok (.echoProbe p (some q)) else .error .noRequest
  | [p, s, d, _, _, e] =>
    if s = 0x01#8 ∧ d = 0x01#8 ∧ e = Config.frameEnd then .ok (.echoProbe p none) else .error .noRequest
  | _ => .error .noRequest

def decodeAuthRequest (bs : Bytes) : Except DecodeError Instr :=
  if bs = [0x52, 0x61, 0x03, 0x00, 0x00, 0x7B, 0x01, 0x31, 0x0D] then .ok .raPlumber
  else if bs = [0x52, 0x61, 0x03, 0x00, 0x00, 0x01, 0x00, 0xB7, 0x0D] then .ok .raNormal
  else if bs = [0x52, 0x61, 0x03, 0x00, 0x00, 0xF3, 0x01, 0xA9, 0x0D] then .ok .raNormalAlt
  else if bs = [0x52, 0x61, 0x03, 0x00, 0xFF, 0xF9, 0x02, 0xAE, 0x0D] then .ok .raService
  else .error .noRequest

def decodeProbe (bs : Bytes) : Except DecodeError Instr :=
  if bs = [0x4D, 0x41, 0x01, 0x01, 0x00, 0x90, 0x0D] then .ok .maProbe else decodeEcho bs

def decodeM2Probe (bs : Bytes) : Except DecodeError Instr :=
  if bs = [0x4D, 0x32, 0x01, 0x01, 0x00, 0x81, 0x0D] then .ok .m2Probe else .error .noRequest

def decodeRbAck (bs : Bytes) : Except DecodeError Instr :=
  if bs = [0x52, 0x62, 0x03, 0x00, 0x00, 0x01, 0x00, 0xB8, 0x0D] then .ok .rbAck else .error .noRequest

def decodeExchangeRequest (bs : Bytes) : Except DecodeError Instr :=
  if bs = [0x4D, 0x31, 0x01, 0x01, 0x00, 0x80, 0x0D] then .ok .m1Req
  else if bs = [0x4D, 0x32, 0x01, 0x01, 0x00, 0x81, 0x0D] then .ok .m2Req
  else if bs = [0x4D, 0x33, 0x01, 0x01, 0x00, 0x82, 0x0D] then .ok .m3Req
  else .error .noRequest

/-- The request row that an outbound byte string is, at the micro-state that sends it: `M2_PROBE` and `M2_REQ` "have
the same bytes and differ only in the micro-state that sends them" (30_encoding.md R107). -/
def decodeRequest (u : Upc) (bs : Bytes) : Except DecodeError Instr :=
  match u with
  | .authSend => decodeAuthRequest bs
  | .p1Send => decodeProbe bs
  | .p2Send => decodeM2Probe bs
  | .p3Send => decodeRbAck bs
  | .p4Send => decodeM2Probe bs
  | .xSend => decodeExchangeRequest bs
  | _ => .error .noRequest

/-- `RSP_MDIGIT` (43_wire_frames.md R251), which is phase 1's exit test on a two-byte header (42_sequencer.md R198). -/
def isMDigit (p q : Byte) : Bool := p = 0x4D#8 && q.extractLsb' 4 4 = 0x3#4

/-- The class of a two-byte header in the data-exchange loop (43_wire_frames.md R252 to R255). -/
def classifyExchange (p q : Byte) : Instr :=
  if p = 0x4D#8 ∧ q = 0x31#8 then .rspM1
  else if p = 0x4D#8 ∧ q = 0x32#8 then .rspM2
  else if p = 0x4D#8 ∧ q = 0x33#8 then .rspM3
  else .rspOther p q

/-- The reply row of a two-byte header at the micro-state that reads it; `readsOk` says whether `READ` returns `ok` for
the burst, which is `RSP_AUTH`'s whole condition (43_wire_frames.md R251 to R256) [log 14]. -/
def decodeReply (u : Upc) (readsOk : Bool) (p q : Byte) : Except DecodeError Instr :=
  match u with
  | .authRead => .ok (if readsOk then .rspAuth p q else .rspOther p q)
  | .p1Read => .ok (if isMDigit p q then .rspMDigit (q.extractLsb' 0 4) else .rspOther p q)
  | .p2Check => .ok (.rspOther p q)
  | .p3Read => .ok (.rspOther p q)
  | .p4Read => .ok (.rspOther p q)
  | .xRead => .ok (classifyExchange p q)
  | _ => .error .noReply

/-- Where a byte string stands: on the host command channel, on the TX line at a micro-state, or, as the two header
bytes of a reply, on the RX line at a micro-state. -/
inductive Channel where
  | host
  | tx (u : Upc)
  | rx (u : Upc) (readsOk : Bool)
deriving DecidableEq, Repr

/-- The decoder: total on any bytes, rejecting by name. -/
def decode : Channel → Bytes → Except DecodeError Instr
  | .host, bs => decodeHost bs
  | .tx u, bs => decodeRequest u bs
  | .rx u ok, [p, q] => decodeReply u ok p q
  | .rx _ _, _ => .error .noReply

/-! ### The encoder -/

/-- A repr operand's bytes (30_encoding.md R98). -/
def encodeOperand (r : Operand) : Bytes := r.tag.code :: be16 (BitVec.ofNat 16 r.payload.length) ++ r.payload

def encodeOptional : Option Operand → Bytes
  | none => []
  | some r => encodeOperand r

/-- C4 `pmask`: bit 0 header present, bit 1 data present (30_encoding.md R98). -/
def pmask (header data : Option Operand) : Byte := BitVec.ofNat 8 (header.isSome.toNat + 2 * data.isSome.toNat)

def verifyFlag (verify : Bool) : Byte := if verify then 1#8 else 0#8

/-- C6 `flags`: bit 0 `useFurnaceClock`, bits 3:1 the sink mask (30_encoding.md R98). -/
def readDataFlags (ufc : Bool) (sinks : BitVec 3) : Byte := BitVec.ofNat 8 (ufc.toNat + 2 * sinks.toNat)

/-- The checksum field of an echo probe: `be16(2 + p + q)`, or `be16(2 + p)` for the one-byte header
(43_wire_frames.md R250). -/
def echoChecksum (p : Byte) (q : Option Byte) : Word16 := BitVec.ofNat 16 (2 + p.toNat + (q.getD 0#8).toNat)

/-- An instruction's bytes: a host operation's command (30_encoding.md R98, R99), a request's bytes on the TX stream with
the terminator (43_wire_frames.md R240 to R250), or the two header bytes that a reply class is told by (R251 to R256). -/
def encode : Instr → Bytes
  | .fnew fs => [0x01, fs.code]
  | .setHeader fs v r => 0x02 :: fs.code :: verifyFlag v :: encodeOperand r
  | .setDataSize fs v r => 0x03 :: fs.code :: verifyFlag v :: encodeOperand r
  | .setData fs v r => 0x04 :: fs.code :: verifyFlag v :: encodeOperand r
  | .setChecksum fs => [0x05, fs.code]
  | .setChecksumV fs v r => 0x06 :: fs.code :: verifyFlag v :: encodeOperand r
  | .prepare fs h d => 0x07 :: fs.code :: pmask h d :: (encodeOptional h ++ encodeOptional d)
  | .getHeader fs f => [0x08, fs.code, f.code]
  | .getData fs f => [0x09, fs.code, f.code]
  | .getDataSize fs f => [0x0A, fs.code, f.code]
  | .getChecksum fs f => [0x0B, fs.code, f.code]
  | .getRaw fs => [0x0C, fs.code]
  | .getHex fs => [0x0D, fs.code]
  | .openPort => [0x10]
  | .write fs => [0x11, fs.code]
  | .read => [0x12]
  | .closePort => [0x13]
  | .pollRx => [0x14]
  | .runAuth u m w => 0x20 :: u.code.setWidth 8 :: (be16 m ++ be32 w)
  | .runInit => [0x21]
  | .readData c k p => 0x22 :: readDataFlags c k :: be32 p
  | .stop => [0x23]
  | .rdReg idx => [0x30, idx]
  | .raPlumber => [0x52, 0x61, 0x03, 0x00, 0x00, 0x7B, 0x01, 0x31, 0x0D]
  | .raNormal => [0x52, 0x61, 0x03, 0x00, 0x00, 0x01, 0x00, 0xB7, 0x0D]
  | .raNormalAlt => [0x52, 0x61, 0x03, 0x00, 0x00, 0xF3, 0x01, 0xA9, 0x0D]
  | .raService => [0x52, 0x61, 0x03, 0x00, 0xFF, 0xF9, 0x02, 0xAE, 0x0D]
  | .maProbe => [0x4D, 0x41, 0x01, 0x01, 0x00, 0x90, 0x0D]
  | .m2Probe => [0x4D, 0x32, 0x01, 0x01, 0x00, 0x81, 0x0D]
  | .rbAck => [0x52, 0x62, 0x03, 0x00, 0x00, 0x01, 0x00, 0xB8, 0x0D]
  | .m1Req => [0x4D, 0x31, 0x01, 0x01, 0x00, 0x80, 0x0D]
  | .m2Req => [0x4D, 0x32, 0x01, 0x01, 0x00, 0x81, 0x0D]
  | .m3Req => [0x4D, 0x33, 0x01, 0x01, 0x00, 0x82, 0x0D]
  | .echoProbe p q => p :: (q.toList ++ 0x01 :: 0x01 :: (be16 (echoChecksum p q) ++ [Config.frameEnd]))
  | .rspMDigit lo => [0x4D, 0x3#4 ++ lo]
  | .rspM1 => [0x4D, 0x31]
  | .rspM2 => [0x4D, 0x32]
  | .rspM3 => [0x4D, 0x33]
  | .rspOther p q => [p, q]
  | .rspAuth p q => [p, q]

/-- A channel on which an instruction's bytes are read as that instruction. -/
def homeChannel : Instr → Channel
  | .raPlumber => .tx .authSend
  | .raNormal => .tx .authSend
  | .raNormalAlt => .tx .authSend
  | .raService => .tx .authSend
  | .maProbe => .tx .p1Send
  | .echoProbe _ _ => .tx .p1Send
  | .m2Probe => .tx .p2Send
  | .rbAck => .tx .p3Send
  | .m1Req => .tx .xSend
  | .m2Req => .tx .xSend
  | .m3Req => .tx .xSend
  | .rspMDigit _ => .rx .p1Read true
  | .rspM1 => .rx .xRead true
  | .rspM2 => .rx .xRead true
  | .rspM3 => .rx .xRead true
  | .rspOther _ _ => .rx .p3Read true
  | .rspAuth _ _ => .rx .authRead true
  | .fnew _ => .host
  | .setHeader _ _ _ => .host
  | .setDataSize _ _ _ => .host
  | .setData _ _ _ => .host
  | .setChecksum _ => .host
  | .setChecksumV _ _ _ => .host
  | .prepare _ _ _ => .host
  | .getHeader _ _ => .host
  | .getData _ _ => .host
  | .getDataSize _ _ => .host
  | .getChecksum _ _ => .host
  | .getRaw _ => .host
  | .getHex _ => .host
  | .openPort => .host
  | .write _ => .host
  | .read => .host
  | .closePort => .host
  | .pollRx => .host
  | .runAuth _ _ _ => .host
  | .runInit => .host
  | .readData _ _ _ => .host
  | .stop => .host
  | .rdReg _ => .host

/-- A row's `kind` (30_encoding.md R107). -/
def Instr.kind (i : Instr) : InstrKind :=
  match homeChannel i with
  | .host => .hostOperation
  | .tx _ => .wireRequest
  | .rx _ _ => .wireReplyClass

/-! ### The rows of spec/opcode_table.json -/

/-- One byte of a row's `match` and `mask`, first byte first. -/
structure RowByte where
  value : Byte
  mask : Byte
deriving DecidableEq, Repr

def RowByte.fits (r : RowByte) (b : Byte) : Bool := b &&& r.mask = r.value

/-- A row byte all of whose bits are fixed. -/
def fixed (b : Byte) : RowByte := ⟨b, 0xFF#8⟩

/-- A row byte none of whose bits is fixed. -/
def free : RowByte := ⟨0#8, 0#8⟩

/-- The row of spec/opcode_table.json that an instruction belongs to, as its `match` and `mask` bytes (R107); for an
echo probe of one header byte, the row's `one_byte_header_form`. -/
def rowOf : Instr → List RowByte
  | .fnew _ => [fixed 0x01]
  | .setHeader _ _ _ => [fixed 0x02]
  | .setDataSize _ _ _ => [fixed 0x03]
  | .setData _ _ _ => [fixed 0x04]
  | .setChecksum _ => [fixed 0x05]
  | .setChecksumV _ _ _ => [fixed 0x06]
  | .prepare _ _ _ => [fixed 0x07]
  | .getHeader _ _ => [fixed 0x08]
  | .getData _ _ => [fixed 0x09]
  | .getDataSize _ _ => [fixed 0x0A]
  | .getChecksum _ _ => [fixed 0x0B]
  | .getRaw _ => [fixed 0x0C]
  | .getHex _ => [fixed 0x0D]
  | .openPort => [fixed 0x10]
  | .write _ => [fixed 0x11]
  | .read => [fixed 0x12]
  | .closePort => [fixed 0x13]
  | .pollRx => [fixed 0x14]
  | .runAuth _ _ _ => [fixed 0x20]
  | .runInit => [fixed 0x21]
  | .readData _ _ _ => [fixed 0x22]
  | .stop => [fixed 0x23]
  | .rdReg _ => [fixed 0x30]
  | .raPlumber => (bytesOf 9 0x52610300007B01310D).map fixed
  | .raNormal => (bytesOf 9 0x52610300000100B70D).map fixed
  | .raNormalAlt => (bytesOf 9 0x5261030000F301A90D).map fixed
  | .raService => (bytesOf 9 0x52610300FFF902AE0D).map fixed
  | .maProbe => (bytesOf 7 0x4D41010100900D).map fixed
  | .m2Probe => (bytesOf 7 0x4D32010100810D).map fixed
  | .rbAck => (bytesOf 9 0x52620300000100B80D).map fixed
  | .m1Req => (bytesOf 7 0x4D31010100800D).map fixed
  | .m2Req => (bytesOf 7 0x4D32010100810D).map fixed
  | .m3Req => (bytesOf 7 0x4D33010100820D).map fixed
  | .echoProbe _ (some _) => [free, free, fixed 0x01, fixed 0x01, free, free, fixed 0x0D]
  | .echoProbe _ none => [free, fixed 0x01, fixed 0x01, free, free, fixed 0x0D]
  | .rspMDigit _ => [fixed 0x4D, ⟨0x30, 0xF0⟩]
  | .rspM1 => [fixed 0x4D, fixed 0x31]
  | .rspM2 => [fixed 0x4D, fixed 0x32]
  | .rspM3 => [fixed 0x4D, fixed 0x33]
  | .rspOther _ _ => [free, free]
  | .rspAuth _ _ => [free, free]

/-- Whether a byte string begins with bytes that fit a row. -/
def fitsRow : List RowByte → Bytes → Bool
  | [], _ => true
  | _ :: _, [] => false
  | r :: rs, b :: bs => r.fits b && fitsRow rs bs

/-! ### The table's word numbering -/

/-- A host command of this opcode whose operand bytes are all zero and exactly as many as its format takes
(30_encoding.md R98). -/
def zeroCommand (op : Byte) : Bytes :=
  op :: List.replicate
    (match op.toNat with
      | 0x01 => 1 | 0x02 => 5 | 0x03 => 5 | 0x04 => 5 | 0x05 => 1 | 0x06 => 5 | 0x07 => 2
      | 0x08 => 2 | 0x09 => 2 | 0x0A => 2 | 0x0B => 2 | 0x0C => 1 | 0x0D => 1
      | 0x11 => 1 | 0x20 => 7 | 0x22 => 5 | 0x30 => 1
      | _ => 0) 0#8

/-- A request frame by its bytes alone, in the table's order; where two rows have the same bytes the first of them. -/
def decodeAnyRequest (bs : Bytes) : Except DecodeError Instr :=
  match decodeAuthRequest bs with
  | .ok i => .ok i
  | .error _ =>
    match decodeM2Probe bs with
    | .ok i => .ok i
    | .error _ =>
      match decodeRbAck bs with
      | .ok i => .ok i
      | .error _ =>
        match decodeExchangeRequest bs with
        | .ok i => .ok i
        | .error _ => decodeProbe bs

/-- A reply class by the header alone: the narrowest row of R251 to R255 the header fits. -/
def classifyHeader (p q : Byte) : Instr :=
  match classifyExchange p q with
  | .rspOther _ _ => if isMDigit p q then .rspMDigit (q.extractLsb' 0 4) else .rspOther p q
  | i => i

/-- The bytes of a table word: 8 bits are a host opcode (its operands zero), every other width is a wire row, which
the table writes with the first byte most significant (30_encoding.md R107) [log 15]. -/
def tableBytes (nbits w : Nat) : Bytes :=
  if nbits = 8 then zeroCommand (BitVec.ofNat 8 w) else bytesOf (nbits / 8) w

/-- The instruction the decoder reads from a word of spec/opcode_table.json, numbered as that table numbers it [log 15]. -/
def decodeTableWord (nbits w : Nat) : Option Instr :=
  if nbits = 8 then (decodeHost (tableBytes nbits w)).toOption
  else
    match tableBytes nbits w with
    | [p, q] => some (classifyHeader p q)
    | bs => (decodeAnyRequest bs).toOption

end Sys2Proof
end

