-- ==== Sys2Proof/Machine/State.lean ====
section
/-!
DEFINITION. What P2FRAME holds (10_state.md R20 to R46, 20_memory.md R60 to R69), as plain data, and its value after reset
(R46). The outside world's script and the clock's sample count are the model's own fields (R45) [log 2, log 3].
-/

namespace Sys2Proof.Machine

/-- A frame register (R20 to R26). -/
structure Frame where
  /-- `F.hdr` (R21). -/
  hdr : Option Bytes
  /-- `F.size` (R22). -/
  size : Option Byte
  /-- `F.data` (R23). -/
  data : Option Bytes
  /-- `F.csum` (R25). -/
  csum : Option Word16
  /-- `F.csum_ext` (R25). -/
  csumExt : Bool
  /-- `F.valid` (R26). -/
  valid : Bool
deriving DecidableEq, Repr, Inhabited

/-- A fresh frame (R24). -/
def Frame.fresh : Frame := ⟨none, none, none, none, false, false⟩

/-- The byte array of the RX burst buffer (R43, 20_memory.md R62): the bytes written, by address, strictly rising. A
byte that is not listed has no value [log 17]. -/
abbrev Memory := List Host.Cell

/-- A burst of the RX line stream, "with `len(s) >= 1`" (20_memory.md R66). -/
structure Burst where
  first : Byte
  rest : Bytes
deriving DecidableEq, Repr, Inhabited

/-- The codes of a CommunicationError, a closed enumeration (60_exceptions.md R263 to R269, 30_encoding.md R103). -/
inductive CommCode where
  /-- Code 2, checksum failure (R264). -/
  | checksumFailure
  /-- Code 9, global timeout (R265). -/
  | globalTimeout
  /-- Code 10, truncation at the header boundary (R266). -/
  | headerBoundary
  /-- Code 11, truncation at the size boundary (R267). -/
  | sizeBoundary
  /-- Code 12, truncation at the data boundary, or a length that disagrees with the size byte (R268). -/
  | dataBoundary
  /-- Code 13, truncation at the checksum boundary (R269). -/
  | checksumBoundary
deriving DecidableEq, Repr, Inhabited

/-- What a `READ` returns (41_transport.md R162). -/
inductive ReadResult where
  | ok
  | err (code : CommCode)
deriving DecidableEq, Repr, Inhabited

/-- `ERR.KIND`, in the order of its encodings 0 to 3 (R40). -/
inductive ErrKind where
  | none
  | authExhausted
  | initTimeout
  | commError
deriving DecidableEq, Repr, Inhabited

/-- The error record `ERR` (R40); no code is encoding 0 of `ERR.CODE`. -/
structure ErrRecord where
  kind : ErrKind
  stage : Stage
  attempts : Word32
  code : Option CommCode
deriving DecidableEq, Repr, Inhabited

/-- What an `OK` response carries (30_encoding.md R100). -/
inductive Payload where
  /-- The empty payload. -/
  | empty
  /-- An accessor's field bytes and the representation they were asked for in. -/
  | field (fmt : Fmt) (bytes : Bytes)
  /-- An accessor on an unset field. -/
  | unset
  /-- `GETRAW`: the two warning flags and the image. -/
  | image (markedInvalid reverifyFailed : Bool) (bytes : Bytes)
  /-- `GETHEX`. -/
  | hex (chars : Ascii)
  /-- `POLLRX`. -/
  | waiting (b : Bool)
  /-- `RDREG`. -/
  | register (v : Word64)
deriving DecidableEq, Repr, Inhabited

/-- A response on the host response channel (30_encoding.md R100). -/
inductive Response where
  | ok (p : Payload)
  | typeMismatch
  | sizeMismatch
  | commError (code : CommCode)
  | protocolFatal (kind : ErrKind) (stage : Stage) (attempts : Word32)
  | refused
  | illegal
deriving DecidableEq, Repr, Inhabited

/-- The flat-file sink's validity tag (42_sequencer.md R221). -/
inductive ValidityTag where
  | valid
  | invalid
deriving DecidableEq, Repr, Inhabited

/-- A record appended to one of the three sink channels (20_memory.md R68). -/
inductive SinkRecord where
  /-- `Sink_kv(ts, hex)`. -/
  | kv (ts : Int) (hex : Ascii)
  /-- `Sink_file(ts, tag, hex)`. -/
  | file (ts : Int) (tag : ValidityTag) (hex : Ascii)
  /-- `Sink_tab(row)`. -/
  | tab (row : List Int)
deriving DecidableEq, Repr, Inhabited

/-- The events of the log channel (60_exceptions.md R291). -/
inductive LogEvent where
  | wCsumMismatch
  | wRawInvalid
  | wRawReverify
  | eInitTolerated
  | wInitAbort
  | eTerminal
  | wCsumLen
  | eAuthRetry
  | eInitSalvage
  | wClockDecode
  | wNoTimestamp
deriving DecidableEq, Repr, Inhabited

/-- What reaches the block from outside its own steps (60_exceptions.md R270), in the order it happens [log 3]. -/
inductive Input where
  /-- The host issues one operation, as its command bytes (30_encoding.md R98). -/
  | host (command : Bytes)
  /-- The line delivers a burst, whole (20_memory.md R66). -/
  | burst (b : Burst)
  /-- Time passes with nothing from outside: the block's own micro-step is taken, the wait in flight expires, or the
  read budget of the read in flight elapses in silence (60_exceptions.md R283, 20_memory.md R66). -/
  | elapse
  /-- The block is reset (70_reset_and_hazards.md R300). -/
  | reset
deriving DecidableEq, Repr, Inhabited

/-- Everything P2FRAME holds. -/
structure State where
  /-- `TXF` (R20). -/
  txf : Frame
  /-- `RXF` (R20). -/
  rxf : Frame
  /-- The bytes of `RXBUF` (R43). -/
  rxbuf : Memory
  /-- `RXBUF.n` (R43). -/
  rxbufN : Nat
  /-- `SEQ.STAGE` (R30). -/
  stage : Stage
  /-- `SEQ.UPC` (R31). -/
  upc : Upc
  /-- `TR.PORT_OPEN` (R34). -/
  portOpen : Bool
  /-- `TR.RD_BUDGET` (R34). -/
  rdBudget : Word32
  /-- `TR.RD_GRANULE` (R34). -/
  rdGranule : Word32
  /-- A host `READ` is in flight: it waits for the line (R44(c)) [log 7]. -/
  hostRead : Bool
  /-- `SEQ.USER` (R35). -/
  user : User
  /-- `SEQ.MAXRETRY` (R35). -/
  maxRetry : Word16
  /-- `SEQ.RETRYWAIT` (R35). -/
  retryWait : Word32
  /-- `SEQ.POLLINT` (R35). -/
  pollInt : Word32
  /-- `SEQ.SINKMASK` (R35): bit 0 keyed-value, bit 1 flat-file, bit 2 tabular. -/
  sinkMask : BitVec 3
  /-- `SEQ.UFC` (R35). -/
  ufc : Bool
  /-- `SEQ.RETRY` (R36). -/
  retry : Word16
  /-- `SEQ.ATTEMPTS` (R36). -/
  attempts : Word32
  /-- `SEQ.BURST` (R36). -/
  burst : BitVec 6
  /-- `SEQ.P4TRY` (R36). -/
  p4Try : BitVec 5
  /-- `SEQ.CYCLE` (R36). -/
  cycle : Word32
  /-- `SEQ.PROBE_HDR` (R37). -/
  probeHdr : Hdr
  /-- `SEQ.LAST_HDR` (R37). -/
  lastHdr : Option Hdr
  /-- `SEQ.TOGGLE` (R38): false is M1 next, true is M2 next. -/
  toggle : Bool
  /-- `SEQ.TS` (R39), signed. -/
  ts : Option Word64
  /-- `SEQ.STOP_PENDING` (R41). -/
  stopPending : Bool
  /-- `ERR` (R40). -/
  err : ErrRecord
  /-- The host response channel: the responses since reset, oldest first (20_memory.md R64). -/
  responses : List Response
  /-- The TX line stream: the bytes put on the line since reset (20_memory.md R65). -/
  tx : Bytes
  /-- The records of the three sink channels in emission order (20_memory.md R68, R77). -/
  sinks : List SinkRecord
  /-- The log channel (20_memory.md R69). -/
  log : List LogEvent
  /-- The unread prefix of the RX line stream: bursts delivered and not yet read (R44(b)) [log 5]. -/
  rxPending : List Burst
  /-- The MODEL's own field: what happens outside, in order (R45) [log 3]. -/
  inputs : List Input
  /-- The MODEL's own field: how often `Now()` has been sampled (R45) [log 2]. -/
  clockReads : Nat
deriving DecidableEq, Repr, Inhabited

/-- The machine right after reset (R46). -/
def State.reset : State where
  txf := .fresh
  rxf := .fresh
  rxbuf := []
  rxbufN := 0
  stage := .preinit
  upc := .idle
  portOpen := false
  rdBudget := Config.readBudget
  rdGranule := Config.readGranule
  hostRead := false
  user := .plumber
  maxRetry := 0
  retryWait := 0
  pollInt := 0
  sinkMask := 0
  ufc := false
  retry := 0
  attempts := 0
  burst := 0
  p4Try := 0
  cycle := 0
  probeHdr := ⟨0x4D, some 0x41⟩
  lastHdr := none
  toggle := false
  ts := none
  stopPending := false
  err := ⟨.none, .preinit, 0, none⟩
  responses := []
  tx := []
  sinks := []
  log := []
  rxPending := []
  inputs := []
  clockReads := 0

/-- Why the machine could stop with a fault. -/
inductive Fault where
  /-- Raised by a wire request's or a reply class's meaning at a position from which 42_sequencer.md R233 lists no
  transition by it ("Every transition not listed does not exist"). Never raised by `step`, which runs a wire row only
  where `fetchWire` selects it. Safe: the machine stops where the hardware has no behaviour [log 12]. -/
  | noTransition
deriving DecidableEq, Repr

/-- Why the machine could refuse a step. -/
inductive Refusal where
  /-- An instruction of the table that has no meaning in this model. Safe. No arm answers with it. -/
  | notModelled (mnemonic : String)
  /-- Raised by a sequencer micro-step that would use the line while the port is closed (a host `CLOSE` came before
  `RUNINIT` or `READDATA`): 41_transport.md R161 and R162 refuse `WRITE` and `READ` on a closed port, and 00_scope.md
  R16 says a refusal has no meaning. Safe: the machine stops where the spec gives no behaviour [log 11]. -/
  | portClosed
deriving DecidableEq, Repr

end Sys2Proof.Machine
end

