-- ==== Sys2Proof/Machine/Flags.lean ====
section
/-!
DEFINITION. The checksum arithmetic (40_codec.md R120, R121, R137), the validity flag's computations (10_state.md R26) and
the one-bit tests of positions (10_state.md R32, 60_exceptions.md R280, R281). There are no condition codes (R33).
-/

namespace Sys2Proof.Machine

/-- The sum of a byte string's bytes as unbounded non-negative integers (00_scope.md R12). -/
def sumBytes (s : Bytes) : Nat := (s.map BitVec.toNat).sum

/-- `CS(h, n, d) = (n + sum(h) + sum(d)) mod 65536` (R120): formed exactly and reduced once (R121). -/
def checksum (h : Bytes) (n : Byte) (d : Bytes) : Word16 :=
  BitVec.ofNat 16 ((n.toNat + sumBytes h + sumBytes d) % Config.csumMod)

/-- `CS_of(F)`: defined only when header, size and data are set (R120). -/
def Frame.csOf (f : Frame) : Option Word16 :=
  match f.hdr, f.size, f.data with
  | some h, some n, some d => some (checksum h n d)
  | _, _, _ => none

/-- `verifies(F)`: all four fields set and the stored checksum equal to the recomputed one (R137). -/
def Frame.verifies (f : Frame) : Bool :=
  match f.csum, f.csOf with
  | some c, some k => c = k
  | _, _ => false

/-- `valid` after a header of this length is stored: 0 for a length other than 2, else unchanged (R26, R125). -/
def validAfterHeader (valid : Bool) (h : Bytes) : Bool := valid && h.length == Config.hdrLen

/-- `valid` as `PREPARE` writes it when header and data are both present (R26, R130). -/
def validPrepared (h : Bytes) : Bool := h.length == Config.hdrLen

/-- A counter's increment, saturating at its maximum (R36). -/
def satInc {w : Nat} (c : BitVec w) : BitVec w := if c = BitVec.allOnes w then c else c + 1#w

/-- Whether a sequencer operation is running: every micro-state but `IDLE` and `HALT` (60_exceptions.md R280, R281). -/
def isRunning : Upc → Bool
  | .idle => false
  | .halt => false
  | _ => true

/-- The micro-states that are reads from start to end (42_sequencer.md R230). -/
def isReading : Upc → Bool
  | .authRead => true
  | .p1Read => true
  | .p3Read => true
  | .p4Read => true
  | .xRead => true
  | _ => false

/-- Whether a read is in flight: a host `READ` that waits, a reading micro-state, or `P2_CHECK` with a reply waiting,
its "reading half" (10_state.md R44, 42_sequencer.md R230) [log 9]. -/
def State.readInFlight (s : State) : Bool :=
  s.hostRead || isReading s.upc || (s.upc == .p2Check && !s.rxPending.isEmpty)

/-- Whether the read in flight ends now, because a burst is there for it (60_exceptions.md R271) [log 6]. -/
def State.readReady (s : State) : Bool := s.readInFlight && !s.rxPending.isEmpty

/-- Whether the host may not issue a direct operation: the sequencer runs (60_exceptions.md R280), or a `READ` of the
host's own has not responded yet (20_memory.md R64) [log 7]. -/
def State.busy (s : State) : Bool := isRunning s.upc || s.hostRead

/-- The wait in flight and its duration in milliseconds, if the position is a wait (60_exceptions.md R282, R283). -/
def State.waitInFlight (s : State) : Option Word32 :=
  match s.upc with
  | .authSleep => some s.retryWait
  | .p2Wait => some Config.p2Spacing
  | .p4Wait => some Config.p4Wait
  | .xSleep => some s.pollInt
  | _ => none

end Sys2Proof.Machine
end

