-- ==== Sys2Proof/Machine/Operands.lean ====
section
/-!
DEFINITION. Operand forms in and out: repr operands to bytes and to a size (40_codec.md R122, 30_encoding.md R97), field
bytes to representations (R123, R96), the hex-string form (R95), and the bytes of a response (R100).
-/

namespace Sys2Proof.Machine

/-! ### Hex digits -/

/-- One uppercase hexadecimal digit as an ASCII code (00_scope.md R13). -/
def hexDigit (n : BitVec 4) : Byte := if n.toNat < 10 then 0x30#8 + n.setWidth 8 else 0x37#8 + n.setWidth 8

/-- `hex(s)` (R13): two digits per byte, high nibble first, no separators. -/
def hexOf (s : Bytes) : Ascii := s.flatMap fun b => [hexDigit (b.extractLsb' 4 4), hexDigit (b.extractLsb' 0 4)]

/-- The value of a hex digit `0-9`, `A-F` or `a-f` (30_encoding.md R97). -/
def digitValue (c : Byte) : Option (BitVec 4) :=
  if 0x30 ≤ c.toNat ∧ c.toNat ≤ 0x39 then some (BitVec.ofNat 4 (c.toNat - 0x30))
  else if 0x41 ≤ c.toNat ∧ c.toNat ≤ 0x46 then some (BitVec.ofNat 4 (c.toNat - 0x37))
  else if 0x61 ≤ c.toNat ∧ c.toNat ≤ 0x66 then some (BitVec.ofNat 4 (c.toNat - 0x57))
  else none

/-- Hex digits to bytes, two characters a byte; none for an odd number of characters or any other character (R122). -/
def unhex : Ascii → Option Bytes
  | [] => some []
  | [_] => none
  | a :: b :: rest =>
    match digitValue a, digitValue b, unhex rest with
    | some x, some y, some s => some ((x ++ y) :: s)
    | _, _, _ => none

/-! ### Operands in -/

/-- `decode_bytes(repr)` (R122); none is the TypeMismatch it raises. -/
def decodeBytes (r : Operand) : Option Bytes :=
  match r.tag with
  | .integer => none
  | .rawBytes => some r.payload
  | .hexDigits => unhex r.payload
  | .integerList => some r.payload

/-- The outcomes of `decode_size(repr)` (R122). -/
inductive SizeOperand where
  | value (n : Byte)
  | typeMismatch
  | refused
deriving DecidableEq, Repr

/-- `decode_size(repr)` (R122): an Integer of 0 to 255 or exactly one raw byte. -/
def decodeSize (r : Operand) : SizeOperand :=
  match r.tag with
  | .integer => if unbe r.payload ≤ 255 then .value (BitVec.ofNat 8 (unbe r.payload)) else .refused
  | .rawBytes =>
    match r.payload with
    | [b] => .value b
    | _ => .refused
  | .hexDigits => .typeMismatch
  | .integerList => .typeMismatch

/-! ### Representations out -/

/-- A field in one of the four representations (30_encoding.md R96). -/
inductive Presented where
  | integer (n : Nat)
  | rawBytes (s : Bytes)
  | hexDigits (chars : Ascii)
  | integerList (ns : List Nat)
deriving DecidableEq, Repr

/-- `encode(fmt, s)` (R123). -/
def present (fmt : Fmt) (s : Bytes) : Presented :=
  match fmt with
  | .integer => .integer (unbe s)
  | .rawBytes => .rawBytes s
  | .hexDigits => .hexDigits (hexOf s)
  | .integerList => .integerList (s.map BitVec.toNat)

/-- The payload bytes of an accessor's repr operand: an Integer "in as many payload bytes as the field has", hex digits
as ASCII characters (R100). -/
def presentBytes (fmt : Fmt) (s : Bytes) : Bytes :=
  match fmt with
  | .hexDigits => hexOf s
  | _ => s

/-! ### Response bytes -/

/-- `ERR.KIND` (R40). -/
def ErrKind.code : ErrKind → BitVec 2
  | .none => 0#2
  | .authExhausted => 1#2
  | .initTimeout => 2#2
  | .commError => 3#2

/-- The number of a CommunicationError code (60_exceptions.md R263). -/
def CommCode.code : CommCode → BitVec 4
  | .checksumFailure => 2#4
  | .globalTimeout => 9#4
  | .headerBoundary => 10#4
  | .sizeBoundary => 11#4
  | .dataBoundary => 12#4
  | .checksumBoundary => 13#4

/-- A byte string with its two-byte length before it (R100). -/
def counted (s : Bytes) : Bytes := be16 (BitVec.ofNat 16 s.length) ++ s

/-- An `OK` response's payload bytes (R100). -/
def Payload.bytes : Payload → Bytes
  | .empty => []
  | .field fmt s => fmt.code :: counted (presentBytes fmt s)
  | .unset => [0xFF, 0x00, 0x00]
  | .image i r s => BitVec.ofNat 8 (i.toNat + 2 * r.toNat) :: counted s
  | .hex cs => counted cs
  | .waiting b => [if b then 1#8 else 0#8]
  | .register v => be64 v

/-- A response's bytes on the host response channel (R100). -/
def Response.bytes : Response → Bytes
  | .ok p => 0x00 :: p.bytes
  | .typeMismatch => [0x10]
  | .sizeMismatch => [0x11]
  | .commError c => [0x20, c.code.setWidth 8]
  | .protocolFatal k st n => 0x30 :: k.code.setWidth 8 :: st.code.setWidth 8 :: be32 n
  | .refused => [0x40]
  | .illegal => [0x41]

end Sys2Proof.Machine
end

