-- ==== Sys2Proof/Machine/Ops.lean ====
section
/-!
DEFINITION. The operations the meanings share: the RX burst buffer, the frame registers and the codec's writes to them, the
frame image, the channels, the line, `READ`, `SEND`, and the block's own exception entry, a terminal error, with `STOP`,
the only way on from it.
-/

namespace Sys2Proof.Machine

/-- What a meaning answers. -/
abbrev Result := Host.Outcome State Fault Refusal

/-! ### The RX burst buffer's bytes (10_state.md R43, 20_memory.md R62) -/

/-- The canonical form: addresses strictly rising, so that equal buffers are equal lists. -/
def Memory.wf : Memory → Bool
  | [] => true
  | [_] => true
  | (a, _) :: (b, w) :: m => a < b && Memory.wf ((b, w) :: m)

/-- `MemRead` of one byte; none where nothing was written [log 17]. -/
def Memory.read : Memory → Nat → Option Byte
  | [], _ => none
  | (k, v) :: m, a => if k = a then some v else Memory.read m a

/-- `MemWrite` of one byte, keeping the canonical form. -/
def Memory.write : Memory → Nat → Byte → Memory
  | [], a, v => [(a, v)]
  | (k, w) :: m, a, v =>
    if a < k then (a, v) :: (k, w) :: m
    else if a = k then (a, v) :: m
    else (k, w) :: Memory.write m a v

/-- Bytes written one after the other from an address, in arrival order (20_memory.md R62). -/
def Memory.store : Memory → Nat → Bytes → Memory
  | m, _, [] => m
  | m, a, b :: bs => Memory.store (Memory.write m a b) (a + 1) bs

/-- The bytes at `n` addresses from `a`. -/
def Memory.load (m : Memory) (a : Nat) : Nat → Bytes
  | 0 => []
  | n + 1 => (Memory.read m a).toList ++ Memory.load m (a + 1) n

/-! ### Frame registers -/

/-- The selected frame register (10_state.md R20). -/
def State.frame (s : State) : FrameSel → Frame
  | .txf => s.txf
  | .rxf => s.rxf

/-- The state with a new content of the selected frame register. -/
def State.setFrame (s : State) (fs : FrameSel) (f : Frame) : State :=
  match fs with
  | .txf => { s with txf := f }
  | .rxf => { s with rxf := f }

/-- One byte of a data field by its index (20_memory.md R61). -/
def Frame.dataByte (f : Frame) (i : Nat) : Option Byte := f.data.bind (·[i]?)

/-! ### Channels -/

/-- One response on the host response channel (20_memory.md R64). -/
def State.respond (s : State) (r : Response) : State := { s with responses := s.responses ++ [r] }

/-- The response `OK` with an empty payload (30_encoding.md R100). -/
def State.respondOk (s : State) : State := s.respond (.ok .empty)

/-- `Log(event)` for each event in order (20_memory.md R69). -/
def State.logEvents (s : State) (es : List LogEvent) : State := { s with log := s.log ++ es }

/-- `LineTx(s)` (20_memory.md R65). -/
def State.lineTx (s : State) (bs : Bytes) : State := { s with tx := s.tx ++ bs }

/-- Records appended to the sink channels in order (20_memory.md R68). -/
def State.emit (s : State) (rs : List SinkRecord) : State := { s with sinks := s.sinks ++ rs }

/-- The bytes the host has received on the response channel (30_encoding.md R100). -/
def State.responseBytes (s : State) : Bytes := s.responses.flatMap Response.bytes

/-- One byte as a character on the physical line: start bit 0, eight data bits least significant first, stop bit 1
(20_memory.md R71). -/
def lineCharacter (b : Byte) : List Bool := false :: (List.range 8).map (fun i => b.getLsbD i) ++ [true]

/-- The bits the TX line stream has on the physical line, characters back to back (20_memory.md R71, 60_exceptions.md
R285). -/
def State.txBits (s : State) : List Bool := s.tx.flatMap lineCharacter

/-- A direct operation of the host: refused, changing nothing, while the host may issue only `STOP` and `RDREG`
(60_exceptions.md R280). -/
def State.direct (s : State) (k : Result) : Result := if s.busy then .next (s.respond .refused) else k

/-! ### The codec's writes to a frame (40_codec.md R124 to R130) -/

/-- A header stored as given (R125). -/
def Frame.withHeader (f : Frame) (h : Bytes) : Frame :=
  { f with hdr := some h, valid := validAfterHeader f.valid h }

/-- Whether data is set with a length other than `n` (R126). -/
def Frame.sizeClash (f : Frame) (n : Byte) : Bool :=
  match f.data with
  | some d => d.length ≠ n.toNat
  | none => false

/-- A size stored as given (R126). -/
def Frame.withSize (f : Frame) (n : Byte) : Frame := { f with size := some n }

/-- Whether size is set to a value other than the length of `d` (R127). -/
def Frame.dataClash (f : Frame) (d : Bytes) : Bool :=
  match f.size with
  | some n => n.toNat ≠ d.length
  | none => false

/-- Data stored, and the size derived from it when it was unset (R127). -/
def Frame.withData (f : Frame) (d : Bytes) : Frame :=
  match f.size with
  | none => { f with data := some d, size := some (BitVec.ofNat 8 d.length) }
  | some _ => { f with data := some d }

/-- A computed checksum stored (R128). -/
def Frame.withComputed (f : Frame) (c : Word16) : Frame := { f with csum := some c, csumExt := false }

/-- A supplied checksum stored (R129). -/
def Frame.withSupplied (f : Frame) (c : Word16) : Frame := { f with csum := some c, csumExt := true }

/-- `PREPARE`'s writes for the operands that are present (R130). -/
def Frame.prepared (f : Frame) (header data : Option Bytes) : Frame :=
  let g : Frame := { f with hdr := header.or f.hdr, data := data.or f.data }
  match g.hdr, g.data with
  | some h, some d =>
    { g with
      size := some (BitVec.ofNat 8 d.length)
      csum := some (checksum h (BitVec.ofNat 8 d.length) d)
      csumExt := false
      valid := validPrepared h }
  | _, _ =>
    match header with
    | some h => { g with valid := validAfterHeader g.valid h }
    | none => g

/-- What a codec operation on a frame comes to (60_exceptions.md R260 to R262, R271, R272). -/
inductive CodecResult where
  /-- The frame as written, and the events logged. -/
  | done (f : Frame) (events : List LogEvent)
  | typeMismatch
  | sizeMismatch
  | refused
deriving DecidableEq, Repr

/-- `SETHEADER` on a frame (R125). -/
def Frame.setHeader (f : Frame) (r : Operand) : CodecResult :=
  match decodeBytes r with
  | none => .typeMismatch
  | some h => if Config.hdrMax < h.length then .refused else .done (f.withHeader h) []

/-- `SETDATASIZE` on a frame (R126). -/
def Frame.setDataSize (f : Frame) (verify : Bool) (r : Operand) : CodecResult :=
  match decodeSize r with
  | .typeMismatch => .typeMismatch
  | .refused => .refused
  | .value n => if verify && f.sizeClash n then .sizeMismatch else .done (f.withSize n) []

/-- `SETDATA` on a frame (R127). -/
def Frame.setData (f : Frame) (verify : Bool) (r : Operand) : CodecResult :=
  match decodeBytes r with
  | none => .typeMismatch
  | some d =>
    if Config.dataMax < d.length then .refused
    else if verify && f.dataClash d then .sizeMismatch
    else .done (f.withData d) []

/-- `SETCHECKSUM` on a frame (R128). -/
def Frame.setChecksum (f : Frame) : CodecResult :=
  match f.csOf with
  | none => .refused
  | some c => .done (f.withComputed c) []

/-- A two-byte checksum supplied from outside, verified or not (R129). -/
def Frame.supply (f : Frame) (verify : Bool) (c : Word16) : CodecResult :=
  if verify && f.csOf = none then .refused
  else if verify && f.csOf ≠ some c then
    .done { f.withSupplied c with valid := false } [.wCsumMismatch]
  else .done (f.withSupplied c) []

/-- `SETCHECKSUMV` on a frame (R129). -/
def Frame.setChecksumV (f : Frame) (verify : Bool) (r : Operand) : CodecResult :=
  match decodeBytes r with
  | none => .typeMismatch
  | some [p, q] => f.supply verify (join16 p q)
  | some _ => .done { f with valid := false } [.wCsumLen]

/-- The bytes of an operand that `PREPARE` may be given; the outer none is the TypeMismatch (R130). -/
def decodeOptional : Option Operand → Option (Option Bytes)
  | none => some none
  | some r => (decodeBytes r).map some

/-- Whether a byte string given to `PREPARE` is above a cap (R130). -/
def overCap (cap : Nat) : Option Bytes → Bool
  | none => false
  | some s => cap < s.length

/-- `PREPARE` on a frame: both operands decoded before any write, a TypeMismatch of either before a refusal of either
(R130, 60_exceptions.md R271) [log 24]. -/
def Frame.prepare (f : Frame) (header data : Option Operand) : CodecResult :=
  match decodeOptional header, decodeOptional data with
  | some h, some d =>
    if overCap Config.hdrMax h || overCap Config.dataMax d then .refused else .done (f.prepared h d) []
  | _, _ => .typeMismatch

/-- The response and the state of a host's codec operation (60_exceptions.md R272). -/
def State.finishCodec (s : State) (fs : FrameSel) : CodecResult → State
  | .done f events => ((s.setFrame fs f).logEvents events).respondOk
  | .typeMismatch => s.respond .typeMismatch
  | .sizeMismatch => s.respond .sizeMismatch
  | .refused => s.respond .refused

/-- The response of an accessor: the field's bytes, or the unset marker (R131 to R134). -/
def fieldResponse (fmt : Fmt) : Option Bytes → Response
  | some s => .ok (.field fmt s)
  | none => .ok .unset

/-! ### The frame image (20_memory.md R63, 40_codec.md R135) -/

/-- The image of a frame, built from the stored fields as they are; none when a field is unset (R135). -/
def Frame.image (f : Frame) : Option Bytes :=
  match f.hdr, f.size, f.data, f.csum with
  | some h, some n, some d, some c => some (h ++ n :: (d ++ be16 c))
  | _, _, _, _ => none

/-- The warning "marked invalid" of `GETRAW` (R135). -/
def Frame.rawInvalid (f : Frame) : Bool := !f.valid

/-- The warning "re-verification failed" of `GETRAW` (R135). -/
def Frame.rawReverify (f : Frame) : Bool := !f.verifies

/-- The events `GETRAW` logs (R135). -/
def Frame.rawEvents (f : Frame) : List LogEvent :=
  (if f.rawInvalid then [.wRawInvalid] else []) ++ (if f.rawReverify then [.wRawReverify] else [])

/-- `GETHEX`'s characters (R136). -/
def Frame.hexForm (f : Frame) : Option Ascii := f.image.map hexOf

/-! ### The port (41_transport.md R160, R166, R167) -/

/-- `OPEN`: on a closed port, nothing that came before it is left to read (R160). -/
def State.openLine (s : State) : State := if s.portOpen then s else { s with portOpen := true, rxPending := [] }

/-- `CLOSE`: "Bytes still unread are lost" (R166). -/
def State.closeLine (s : State) : State := { s with portOpen := false, rxPending := [] }

/-- `REOPEN` = `CLOSE; OPEN` (R167). -/
def State.reopenLine (s : State) : State := s.closeLine.openLine

/-- A burst arrives: it waits to be read while the port is open, and is discarded while it is closed (R160,
60_exceptions.md R285). -/
def State.arrive (s : State) (b : Burst) : State :=
  if s.portOpen then { s with rxPending := s.rxPending ++ [b] } else s

/-! ### `WRITE` and `SEND` (41_transport.md R161, 30_encoding.md R106) -/

/-- The bytes of a burst (20_memory.md R66). -/
def Burst.bytes (b : Burst) : Bytes := b.first :: b.rest

/-- What `WRITE` puts on the line for a frame with this image: the image and the terminator (R161). -/
def outbound (image : Bytes) : Bytes := image ++ [Config.frameEnd]

/-- `WRITE` of a frame with this image: `GETRAW`'s events, then the bytes, nothing interleaved (R161). -/
def State.writeImage (s : State) (f : Frame) (image : Bytes) : State :=
  (s.logEvents f.rawEvents).lineTx (outbound image)

/-- The frame that `SEND h, d` builds: `FNEW`, then `PREPARE h, d` (30_encoding.md R106). -/
def sendFrame (h d : Bytes) : Frame := Frame.fresh.prepared (some h) (some d)

/-- `SEND h, d` with the port open: `FNEW TXF; PREPARE TXF, h, d; WRITE TXF` (30_encoding.md R106). -/
def State.send (s : State) (h d : Bytes) : State :=
  ({ s with txf := sendFrame h d }).writeImage (sendFrame h d) ((sendFrame h d).image.getD [])

/-- A sequencer micro-step that uses the line; the spec gives it no meaning while the port is closed [log 11]. -/
def State.onOpenPort (s : State) (k : State) : Result := if s.portOpen then .next k else .refused .portClosed

/-- One more request frame sent in the stage (10_state.md R36). -/
def State.countAttempt (s : State) : State := { s with attempts := satInc s.attempts }

/-! ### `READ` (41_transport.md R162 to R164, R169) -/

/-- What a `READ` makes of a burst's bytes: the content of `RXF`, the result, and the events logged (R163). -/
structure Assembly where
  frame : Frame
  result : ReadResult
  events : List LogEvent
deriving DecidableEq, Repr

/-- The last part of R163: header, size and data are assigned; the supplied checksum is stored and compared. -/
def assembleChecksum (f : Frame) (c : Word16) : Assembly :=
  match f.supply true c with
  | .done g events =>
    if g.verifies then ⟨{ g with valid := true }, .ok, events⟩ else ⟨g, .err .checksumFailure, events⟩
  | _ => ⟨f, .err .checksumBoundary, []⟩

/-- `READ` of the bytes in `RXBUF` (R163): header, size, data and checksum are assigned in this order through the codec's
own writes, and the first that cannot be assigned decides the error. -/
def assemble (b : Bytes) : Assembly :=
  let f1 := Frame.fresh.withHeader (b.take 2)
  let size := b.getD 2 0#8
  let f2 := f1.withSize size
  let data := (b.take (b.length - 2)).drop 3
  if b.length ≤ 2 then ⟨f1, .err .headerBoundary, []⟩
  else if b.length = 3 then ⟨f2, .err .sizeBoundary, []⟩
  else if b.length = 4 then
    if size ≠ 0#8 then ⟨f2, .err .dataBoundary, []⟩ else ⟨f2.withData [], .err .checksumBoundary, []⟩
  else if f2.dataClash data then ⟨f2, .err .dataBoundary, []⟩
  else assembleChecksum (f2.withData data) (join16 (b.getD (b.length - 2) 0#8) (b.getD (b.length - 1) 0#8))

/-- `RXBUF` filled with a burst: cleared, then its first 261 bytes from address 0 (R43, R169). -/
def State.fillBuffer (s : State) (b : Bytes) : State :=
  { s with
    rxbuf := Memory.store [] 0 (b.take Config.rxbufCap)
    rxbufN := (b.take Config.rxbufCap).length }

/-- The bytes `RXBUF` holds: those below the fill count (20_memory.md R62). -/
def State.bufferBytes (s : State) : Bytes := Memory.load s.rxbuf 0 s.rxbufN

/-- `RXF` and the log after the burst in `RXBUF` is sliced into fields (R163). -/
def State.takeAssembly (s : State) (a : Assembly) : State := { s with rxf := a.frame }.logEvents a.events

/-- `READ` of a burst (R162, R163). -/
def State.readBurst (s : State) (b : Burst) : State × ReadResult :=
  let t := s.fillBuffer b.bytes
  (t.takeAssembly (assemble t.bufferBytes), (assemble t.bufferBytes).result)

/-- `READ` of silence (R164): `RXBUF` cleared, `RXF` a fresh frame, code 9. -/
def State.readSilence (s : State) : State × ReadResult :=
  ({ s.fillBuffer [] with rxf := .fresh }, .err .globalTimeout)

/-- `READ` as it ends: of the first burst that waits, or, when none does, of silence, the budget having elapsed
(20_memory.md R66). In a sequencer's read this one step also clears `RXF` and `RXBUF` (41_transport.md R162, R163, 10_state.md
R43); until it is taken they keep what they held [log 28]. -/
def State.readLine (s : State) : State × ReadResult :=
  match s.rxPending with
  | b :: rest => { s with rxPending := rest }.readBurst b
  | [] => s.readSilence

/-- The response of a host's `READ` (R162). -/
def readResponse : ReadResult → Response
  | .ok => .ok .empty
  | .err c => .commError c

/-- A host's `READ` as it ends and responds. -/
def State.finishHostRead (s : State) : State :=
  { s.readLine.1 with hostRead := false }.respond (readResponse s.readLine.2)

/-! ### Taking an exception: a terminal error (60_exceptions.md R274 to R276) -/

/-- Terminal error entry: the error record written whole, `UPC` to `HALT`, one log event, and the running operation's
response (R274). Every other register keeps its value. -/
def State.raiseTerminal (s : State) (kind : ErrKind) (attempts : Word32) (code : Option CommCode) (r : Response) : State :=
  { s with err := ⟨kind, s.stage, attempts, code⟩, upc := .halt }.logEvents [.eTerminal] |>.respond r

/-- `ProtocolFatal(AUTH_EXHAUSTED)` (R275). -/
def State.raiseAuthExhausted (s : State) : State :=
  s.raiseTerminal .authExhausted (s.retry.setWidth 32) none (.protocolFatal .authExhausted s.stage (s.retry.setWidth 32))

/-- `ProtocolFatal(INIT_TIMEOUT)` (R275). -/
def State.raiseInitTimeout (s : State) : State :=
  s.raiseTerminal .initTimeout s.attempts (some .globalTimeout) (.protocolFatal .initTimeout s.stage s.attempts)

/-- `COMM_ERROR` as a terminal error (R276). -/
def State.raiseCommError (s : State) (c : CommCode) : State :=
  s.raiseTerminal .commError s.attempts (some c) (.commError c)

/-! ### The way on: `STOP` (42_sequencer.md R230, 60_exceptions.md R277) -/

/-- `STOP` when it is taken: the running operation, if any, responds `OK`, then `STOP` does (R230). -/
def State.takeStop (s : State) : State :=
  let t := if isRunning s.upc then s.respondOk else s
  { t.closeLine with stage := .preinit, upc := .idle, stopPending := false }.respondOk

/-! ### Register read (10_state.md R42, 42_sequencer.md R231) -/

/-- A header register as `RDREG` shows it: `unbe` of the bytes, the length in bits 17:16 (R42). -/
def headerWord (h : Hdr) : Word64 := BitVec.ofNat 64 (unbe h.bytes + 65536 * h.bytes.length)

/-- A flag zero-extended to 64 bits. -/
def flagWord (b : Bool) : Word64 := BitVec.ofNat 64 b.toNat

/-- The value of a register by number: zero-extended to 64 bits, an unset optional all ones, none for an unassigned
number (R42). -/
def State.register (s : State) (idx : Nat) : Option Word64 :=
  match idx with
  | 0 => some (s.stage.code.setWidth 64)
  | 1 => some (s.upc.code.setWidth 64)
  | 2 => some (flagWord s.portOpen)
  | 3 => some (s.rdBudget.setWidth 64)
  | 4 => some (s.rdGranule.setWidth 64)
  | 5 => some (s.user.code.setWidth 64)
  | 6 => some (s.maxRetry.setWidth 64)
  | 7 => some (s.retryWait.setWidth 64)
  | 8 => some (s.retry.setWidth 64)
  | 9 => some (s.attempts.setWidth 64)
  | 10 => some (s.burst.setWidth 64)
  | 11 => some (s.p4Try.setWidth 64)
  | 12 => some (headerWord s.probeHdr)
  | 13 => some ((s.lastHdr.map headerWord).getD (BitVec.allOnes 64))
  | 14 => some (flagWord s.toggle)
  | 15 => some (s.ts.getD (BitVec.allOnes 64))
  | 16 => some (s.pollInt.setWidth 64)
  | 17 => some (s.sinkMask.setWidth 64)
  | 18 => some (flagWord s.ufc)
  | 19 => some (s.err.kind.code.setWidth 64)
  | 20 => some (s.err.stage.code.setWidth 64)
  | 21 => some (s.err.attempts.setWidth 64)
  | 22 => some (((s.err.code.map CommCode.code).getD 0#4).setWidth 64)
  | 23 => some (flagWord s.stopPending)
  | 24 => some (s.cycle.setWidth 64)
  | 25 => some (flagWord s.txf.valid)
  | 26 => some (flagWord s.rxf.valid)
  | _ => none

end Sys2Proof.Machine
end

