-- ==== Sys2Proof/Machine/Codec.lean ====
section
/-!
DEFINITION. The meanings of the frame codec's operations (40_codec.md R124 to R136). Each is a direct operation of the host
(60_exceptions.md R280); its error outcomes are responses, after which the block goes on (R272) [log 25].
-/

namespace Sys2Proof.Machine

/-- `FNEW fs` (R124). -/
def execFnew (fs : FrameSel) (s : State) : Result := s.direct (.next (s.setFrame fs .fresh).respondOk)

/-- `SETHEADER fs, repr` (R125); `verify` is ignored. -/
def execSetHeader (fs : FrameSel) (_verify : Bool) (r : Operand) (s : State) : Result :=
  s.direct (.next (s.finishCodec fs ((s.frame fs).setHeader r)))

/-- `SETDATASIZE fs, repr, verify` (R126). -/
def execSetDataSize (fs : FrameSel) (verify : Bool) (r : Operand) (s : State) : Result :=
  s.direct (.next (s.finishCodec fs ((s.frame fs).setDataSize verify r)))

/-- `SETDATA fs, repr, verify` (R127). -/
def execSetData (fs : FrameSel) (verify : Bool) (r : Operand) (s : State) : Result :=
  s.direct (.next (s.finishCodec fs ((s.frame fs).setData verify r)))

/-- `SETCHECKSUM fs` (R128). -/
def execSetChecksum (fs : FrameSel) (s : State) : Result :=
  s.direct (.next (s.finishCodec fs (s.frame fs).setChecksum))

/-- `SETCHECKSUMV fs, repr, verify` (R129). -/
def execSetChecksumV (fs : FrameSel) (verify : Bool) (r : Operand) (s : State) : Result :=
  s.direct (.next (s.finishCodec fs ((s.frame fs).setChecksumV verify r)))

/-- `PREPARE fs, header?, data?` (R130). -/
def execPrepare (fs : FrameSel) (header data : Option Operand) (s : State) : Result :=
  s.direct (.next (s.finishCodec fs ((s.frame fs).prepare header data)))

/-- `GETHEADER fs, fmt` (R131). -/
def execGetHeader (fs : FrameSel) (fmt : Fmt) (s : State) : Result :=
  s.direct (.next (s.respond (fieldResponse fmt (s.frame fs).hdr)))

/-- `GETDATA fs, fmt` (R132). -/
def execGetData (fs : FrameSel) (fmt : Fmt) (s : State) : Result :=
  s.direct (.next (s.respond (fieldResponse fmt (s.frame fs).data)))

/-- `GETDATASIZE fs, fmt` (R133): the stored size field. -/
def execGetDataSize (fs : FrameSel) (fmt : Fmt) (s : State) : Result :=
  s.direct (.next (s.respond (fieldResponse fmt ((s.frame fs).size.map fun n => [n]))))

/-- `GETCHECKSUM fs, fmt` (R134): the stored checksum. -/
def execGetChecksum (fs : FrameSel) (fmt : Fmt) (s : State) : Result :=
  s.direct (.next (s.respond (fieldResponse fmt ((s.frame fs).csum.map be16))))

/-- `GETRAW fs` (R135). -/
def execGetRaw (fs : FrameSel) (s : State) : Result :=
  s.direct (.next
    (match (s.frame fs).image with
      | some img =>
        (s.logEvents (s.frame fs).rawEvents).respond
          (.ok (.image (s.frame fs).rawInvalid (s.frame fs).rawReverify img))
      | none => s.respond .refused))

/-- `GETHEX fs` (R136). -/
def execGetHex (fs : FrameSel) (s : State) : Result :=
  s.direct (.next
    (match (s.frame fs).hexForm with
      | some chars => s.respond (.ok (.hex chars))
      | none => s.respond .refused))

end Sys2Proof.Machine
end

