-- ==== Sys2Proof/Machine/Fetch.lean ====
section
/-!
DEFINITION. Which wire row the sequencer is at (42_sequencer.md R191 to R222, 43_wire_frames.md): the request it sends next,
or the class of the reply that waits for its read. `step` runs the row this selects; a meaning of a wire row runs nowhere
else (42_sequencer.md R233) [log 12].
-/

namespace Sys2Proof.Machine

/-- The identifier frame of a user (43_wire_frames.md R240 to R243). -/
def authRequest : User → Instr
  | .plumber => .raPlumber
  | .normal => .raNormal
  | .normalAlt => .raNormalAlt
  | .service => .raService

/-- The header `[0x4D,0x33]`, "M3" (42_sequencer.md R218). -/
def m3Header : Hdr := ⟨0x4D#8, some 0x33#8⟩

/-- The choice of the data-exchange request (42_sequencer.md R216). -/
def exchangeRequest (lastHdr : Option Hdr) (toggle : Bool) : Instr :=
  if lastHdr = some m3Header then .m3Req else if toggle then .m2Req else .m1Req

/-- The request row of a sending micro-state (42_sequencer.md R191, R196, R199, R202, R205, R216). -/
def fetchRequest (s : State) : Option Instr :=
  match s.upc with
  | .authSend => some (authRequest s.user)
  | .p1Send => some (probe s.probeHdr)
  | .p2Send => some .m2Probe
  | .p3Send => some .rbAck
  | .p4Send => some .m2Probe
  | .xSend => some (exchangeRequest s.lastHdr s.toggle)
  | _ => none

/-- Whether `READ` returns `ok` for a burst (41_transport.md R163). -/
def readsOk (b : Burst) : Bool := (assemble (b.bytes.take Config.rxbufCap)).result = .ok

/-- The reply row of the burst that waits at a reading micro-state; none when none waits or its header has one byte, which
"is in no class" [log 14]. -/
def fetchReply (s : State) : Option Instr :=
  match s.rxPending with
  | b :: _ =>
    match b.rest with
    | q :: _ => (decodeReply s.upc (readsOk b) b.first q).toOption
    | [] => none
  | [] => none

/-- The wire row the sequencer is at, if any. -/
def fetchWire (s : State) : Option Instr :=
  match fetchRequest s with
  | some i => some i
  | none => fetchReply s

/-- A wire row's meaning, at the positions that have it (42_sequencer.md R233). -/
def atPosition (i : Instr) (s : State) (k : Result) : Result :=
  if fetchWire s = some i then k else .fault .noTransition

end Sys2Proof.Machine
end

