-- ==== Sys2Proof/Machine/Requests.lean ====
section
/-!
DEFINITION. The meanings of the request frames (43_wire_frames.md R240 to R250): each is the whole `*_SEND` micro-step that
sends the frame (42_sequencer.md R191, R196, R199, R202, R205, R216).
-/

namespace Sys2Proof.Machine

/-- What `AUTH_SEND` writes after its frame (42_sequencer.md R191). -/
def State.afterAuthSend (s : State) : State := { s.countAttempt with upc := .authRead }

/-- `RA_PLUMBER` (43_wire_frames.md R240). -/
def execRaPlumber (s : State) : Result :=
  atPosition .raPlumber s (s.onOpenPort (s.send [0x52, 0x61] [0x00, 0x00, 0x7B]).afterAuthSend)

/-- `RA_NORMAL` (43_wire_frames.md R241). -/
def execRaNormal (s : State) : Result :=
  atPosition .raNormal s (s.onOpenPort (s.send [0x52, 0x61] [0x00, 0x00, 0x01]).afterAuthSend)

/-- `RA_NORMAL_ALT` (43_wire_frames.md R242). -/
def execRaNormalAlt (s : State) : Result :=
  atPosition .raNormalAlt s (s.onOpenPort (s.send [0x52, 0x61] [0x00, 0x00, 0xF3]).afterAuthSend)

/-- `RA_SERVICE` (43_wire_frames.md R243). -/
def execRaService (s : State) : Result :=
  atPosition .raService s (s.onOpenPort (s.send [0x52, 0x61] [0x00, 0xFF, 0xF9]).afterAuthSend)

/-- What `P1_SEND` writes after its frame (42_sequencer.md R196). -/
def State.afterP1Send (s : State) : State := { s.countAttempt with upc := .p1Read }

/-- `MA_PROBE` (43_wire_frames.md R244). -/
def execMaProbe (s : State) : Result :=
  atPosition .maProbe s (s.onOpenPort (s.send [0x4D, 0x41] [0x01]).afterP1Send)

/-- `ECHO_PROBE` (43_wire_frames.md R250): header `[p, q]`, or `[p]`, which is sent all the same. -/
def execEchoProbe (p : Byte) (q : Option Byte) (s : State) : Result :=
  atPosition (.echoProbe p q) s (s.onOpenPort (s.send (p :: q.toList) [0x01]).afterP1Send)

/-- What `P2_SEND` writes after its frame (42_sequencer.md R199). -/
def State.afterP2Send (s : State) : State := { s.countAttempt with burst := satInc s.burst, upc := .p2Check }

/-- What `P4_SEND` writes after its frame (42_sequencer.md R205). -/
def State.afterP4Send (s : State) : State := { s.countAttempt with p4Try := satInc s.p4Try, upc := .p4Read }

/-- `M2_PROBE` (43_wire_frames.md R245), sent by `P2_SEND` and by `P4_SEND`. -/
def execM2Probe (s : State) : Result :=
  atPosition .m2Probe s (s.onOpenPort
    (if s.upc = .p2Send then (s.send [0x4D, 0x32] [0x01]).afterP2Send
      else (s.send [0x4D, 0x32] [0x01]).afterP4Send))

/-- `RB_ACK` (43_wire_frames.md R246, 42_sequencer.md R202). -/
def execRbAck (s : State) : Result :=
  atPosition .rbAck s (s.onOpenPort
    { (s.send [0x52, 0x62] [0x00, 0x00, 0x01]).countAttempt with upc := .p3Read })

/-- `M1_REQ` (43_wire_frames.md R247): the toggle goes to 1 (42_sequencer.md R216). -/
def execM1Req (s : State) : Result :=
  atPosition .m1Req s (s.onOpenPort
    { (s.send [0x4D, 0x31] [0x01]).countAttempt with toggle := true, upc := .xRead })

/-- `M2_REQ` (43_wire_frames.md R248): the toggle goes to 0 (42_sequencer.md R216). -/
def execM2Req (s : State) : Result :=
  atPosition .m2Req s (s.onOpenPort
    { (s.send [0x4D, 0x32] [0x01]).countAttempt with toggle := false, upc := .xRead })

/-- `M3_REQ` (43_wire_frames.md R249): the toggle is not changed (42_sequencer.md R216). -/
def execM3Req (s : State) : Result :=
  atPosition .m3Req s (s.onOpenPort { (s.send [0x4D, 0x33] [0x01]).countAttempt with upc := .xRead })

end Sys2Proof.Machine
end

