-- ==== Sys2Proof/Machine/Telemetry.lean ====
section
/-!
DEFINITION. Reply processing of the data-exchange loop (42_sequencer.md R218 to R221): the furnace clock and the routing of
telemetry to the sinks. `decode_fields` and `to_epoch` are arguments here, as 00_scope.md R11 says; the machine passes the
free values of Config [log 1]. The spec's defaults for them stand at the end, for the spec's own vectors.
-/

namespace Sys2Proof.Machine

/-- `decode_fields` (00_scope.md R11). -/
abbrev FieldDecoder := Bytes → List Int

/-- `to_epoch` (00_scope.md R11): year, month, day, hour, minute, second. -/
abbrev EpochConverter := Nat → Nat → Nat → Nat → Nat → Nat → Option Word64

/-- The furnace clock in an M2 payload: year minus 2000, weekday (ignored), month, day, hour, minute, second; none for
fewer than seven bytes or a rejected date (R219). -/
def clockOf (toEpoch : EpochConverter) : Bytes → Option Word64
  | y :: _ :: mo :: d :: h :: mi :: sec :: _ =>
    toEpoch (2000 + y.toNat) mo.toNat d.toNat h.toNat mi.toNat sec.toNat
  | _ => none

/-- Reply processing step 2 for an M2 reply: with `UFC = 1` the timestamp is decoded, or its failure logged (R219). -/
def State.decodeClock (toEpoch : EpochConverter) (s : State) : State :=
  if s.ufc then
    match clockOf toEpoch (s.rxf.data.getD []) with
    | some t => { s with ts := some t }
    | none => s.logEvents [.wClockDecode]
  else s

/-- The hex-string form of a received frame, `GETHEX RXF` (R221). -/
def hexData (f : Frame) : Ascii := f.hexForm.getD []

/-- `route(t)` (R221): at most one record per sink, keyed-value, then flat-file, then tabular. -/
def routeRecords (decodeFields : FieldDecoder) (mask : BitVec 3) (f : Frame) (t : Int) : List SinkRecord :=
  (if mask.getLsbD 0 && f.valid then [.kv t (hexData f)] else []) ++
  (if mask.getLsbD 1 then [.file t (if f.valid then .valid else .invalid) (hexData f)] else []) ++
  (if mask.getLsbD 2 && f.valid then [.tab (t :: decodeFields (f.data.getD []))] else [])

/-- `route(t)` on the state (R221). -/
def State.route (decodeFields : FieldDecoder) (s : State) (t : Int) : State :=
  s.emit (routeRecords decodeFields s.sinkMask s.rxf t)

/-- Reply processing step 3 for an M1 reply (R220): the timestamp is `SEQ.TS` in furnace-clock mode, else a sample of
the local clock; without a timestamp the record is dropped and logged. -/
def State.routeTelemetry (decodeFields : FieldDecoder) (s : State) : State :=
  if s.ufc then
    match s.ts with
    | some t => s.route decodeFields t.toInt
    | none => s.logEvents [.wNoTimestamp]
  else { s.route decodeFields (Config.now s.clockReads) with clockReads := s.clockReads + 1 }

/-! ### The spec's defaults for the two parameters (00_scope.md R11, 92_eei_decisions.md D36, D37)

Nothing of the machine uses them. -/

/-- The default `decode_fields`: the data bytes as integers. -/
def defaultDecodeFields : FieldDecoder := fun d => d.map fun b => (b.toNat : Int)

def isLeap (y : Nat) : Bool := y % 4 == 0 && (y % 100 != 0 || y % 400 == 0)

/-- The leap years before year `y`, in the proleptic Gregorian calendar. -/
def leapsBefore (y : Nat) : Nat := (y - 1) / 4 - (y - 1) / 100 + (y - 1) / 400

/-- The length of a month; 0 for a number that is no month. -/
def monthLength (y m : Nat) : Nat :=
  match m with
  | 1 => 31 | 2 => if isLeap y then 29 else 28 | 3 => 31 | 4 => 30 | 5 => 31 | 6 => 30
  | 7 => 31 | 8 => 31 | 9 => 30 | 10 => 31 | 11 => 30 | 12 => 31
  | _ => 0

/-- The default `to_epoch`: proleptic Gregorian calendar, UTC, seconds since 1970-01-01, none for an impossible date
(for years from 1970 on, which the furnace clock's 2000 to 2255 are) [log 27]. -/
def defaultToEpoch : EpochConverter := fun y mo d h mi sec =>
  if 1 ≤ d && d ≤ monthLength y mo && h < 24 && mi < 60 && sec < 60 then
    let days := 365 * (y - 1970) + (leapsBefore y - leapsBefore 1970)
      + ((List.range (mo - 1)).map fun k => monthLength y (k + 1)).sum + (d - 1)
    some (BitVec.ofNat 64 (((days * 24 + h) * 60 + mi) * 60 + sec))
  else none

end Sys2Proof.Machine
end

