-- ==== Sys2Proof/Machine/Replies.lean ====
section
/-!
DEFINITION. The reading micro-steps of the sequencer (42_sequencer.md R192, R197, R198, R200, R203, R206, R217) and the
meanings of the reply classes (43_wire_frames.md R251 to R256), each of which is the reading micro-step that takes such a
reply. The same micro-steps run for a silence and for a one-byte burst, which are in no class [log 14].
-/

namespace Sys2Proof.Machine

/-! ### The reading micro-steps -/

/-- `AUTH_READ` (42_sequencer.md R192). -/
def authReadStep (s : State) : State :=
  match s.readLine with
  | (t, .ok) => { t with upc := .idle }.respondOk
  | (t, .err _) => { t.logEvents [.eAuthRetry] with upc := .authSleep }

/-- `SEQ.PROBE_HDR <- rh` (42_sequencer.md R197): every burst sets the header of `RXF`. -/
def State.salvageHeader (s : State) : State :=
  { s with probeHdr := (Hdr.ofBytes (s.rxf.hdr.getD [])).getD s.probeHdr }

/-- The exit test of phase 1 (42_sequencer.md R198). -/
def exitTest (h : Hdr) : Bool :=
  match h.second with
  | some q => isMDigit h.first q
  | none => false

/-- What phase 1 does with the header just received (42_sequencer.md R198). -/
def State.afterHeader (s : State) : State :=
  if exitTest s.probeHdr then { s with stage := .postInit, burst := 0, upc := .p2Send }
  else { s with upc := .p1Send }

/-- `P1_READ` (42_sequencer.md R197): code 9 is tested before the salvage (60_exceptions.md R271). -/
def p1ReadStep (s : State) : State :=
  match s.readLine with
  | (t, .ok) => t.salvageHeader.afterHeader
  | (t, .err .globalTimeout) => t.raiseInitTimeout
  | (t, .err _) => (t.logEvents [.eInitSalvage]).salvageHeader.afterHeader

/-- A result that phases 2 to 4 log and go on from (42_sequencer.md R200, R203, R206). -/
def State.tolerate (s : State) : ReadResult → State
  | .ok => s
  | .err _ => s.logEvents [.eInitTolerated]

/-- `P2_CHECK` when a reply is waiting (42_sequencer.md R200). -/
def p2CheckRead (s : State) : State := { s.readLine.1.tolerate s.readLine.2 with upc := .p2Wait }

/-- `P3_READ` (42_sequencer.md R203). -/
def p3ReadStep (s : State) : State := { s.readLine.1.tolerate s.readLine.2 with upc := .p4Wait }

/-- `RUNINIT` completes (42_sequencer.md R206). -/
def State.completeInit (s : State) : State := { s with stage := .xchg, upc := .idle }.respondOk

/-- `P4_READ` (42_sequencer.md R206): any outcome but code 9 is a reply; the twentieth silence is logged as an abort and
goes on all the same (R207) [log 21]. -/
def p4ReadStep (s : State) : State :=
  match s.readLine with
  | (t, .err .globalTimeout) =>
    if t.p4Try.toNat < Config.p4Max then { t with upc := .p4Send }
    else (t.logEvents [.wInitAbort]).completeInit
  | (t, r) => (t.tolerate r).completeInit

/-- Reply processing step 1: `SEQ.LAST_HDR <- RXF.hdr` (42_sequencer.md R218). -/
def State.noteHeader (s : State) : State := { s with lastHdr := Hdr.ofBytes (s.rxf.hdr.getD []) }

/-- `X_READ` (42_sequencer.md R217): an `ok` or a code 2 is processed, `process` being steps 2 and 3 for the reply's class
(R219, R220); every other code is terminal. -/
def xReadStep (process : State → State) (s : State) : State :=
  match s.readLine with
  | (t, .ok) => { process t.noteHeader with upc := .xSleep }
  | (t, .err .checksumFailure) => { process t.noteHeader with upc := .xSleep }
  | (t, .err c) => t.raiseCommError c

/-! ### The reply classes -/

/-- `RSP_AUTH` (43_wire_frames.md R256): authentication has succeeded. -/
def execRspAuth (first second : Byte) (s : State) : Result :=
  atPosition (.rspAuth first second) s (s.onOpenPort (authReadStep s))

/-- `RSP_MDIGIT` (43_wire_frames.md R251): it ends phase 1, whatever the rest of the reply. -/
def execRspMDigit (digit : BitVec 4) (s : State) : Result :=
  atPosition (.rspMDigit digit) s (s.onOpenPort (p1ReadStep s))

/-- `RSP_M1` (43_wire_frames.md R252): telemetry. -/
def execRspM1 (s : State) : Result :=
  atPosition .rspM1 s (s.onOpenPort (xReadStep (State.routeTelemetry Config.decodeFields) s))

/-- `RSP_M2` (43_wire_frames.md R253): the furnace clock, in furnace-clock mode. -/
def execRspM2 (s : State) : Result :=
  atPosition .rspM2 s (s.onOpenPort (xReadStep (State.decodeClock Config.toEpoch) s))

/-- `RSP_M3` (43_wire_frames.md R254): its header is noted, and the next request is `M3_REQ`; its data is not examined. -/
def execRspM3 (s : State) : Result := atPosition .rspM3 s (s.onOpenPort (xReadStep id s))

/-- What a reply of no other class does, by position (43_wire_frames.md R255): nothing of it is used but the header, which
`P1_READ` and `X_READ` copy. -/
def otherReply (s : State) : State :=
  match s.upc with
  | .authRead => authReadStep s
  | .p1Read => p1ReadStep s
  | .p2Check => p2CheckRead s
  | .p3Read => p3ReadStep s
  | .p4Read => p4ReadStep s
  | .xRead => xReadStep id s
  | _ => s

/-- `RSP_OTHER` (43_wire_frames.md R255). -/
def execRspOther (first second : Byte) (s : State) : Result :=
  atPosition (.rspOther first second) s (s.onOpenPort (otherReply s))

end Sys2Proof.Machine
end

