-- ==== Sys2Proof/Machine/Sequencer.lean ====
section
/-!
DEFINITION. The sequencer's entry operations, `STOP` and `RDREG` (42_sequencer.md R190, R195, R215, R230, R231), and the
micro-steps that no wire row names: the waits (R193, R201, R204, R222), a read that ends in silence or takes a one-byte
burst, and `P2_CHECK` with nothing waiting (R200).
-/

namespace Sys2Proof.Machine

/-! ### Entry operations -/

/-- `RUNAUTH user, maxRetry, retryWait` (R190): accepted only in `PREINIT` and `IDLE`. -/
def execRunAuth (user : User) (maxRetry : Word16) (retryWait : Word32) (s : State) : Result :=
  s.direct (.next
    (if s.stage = .preinit ∧ s.upc = .idle then
      { s.openLine with
        user := user
        maxRetry := maxRetry
        retryWait := retryWait
        retry := 0
        attempts := 0
        stage := .login
        upc := .authSend }
    else s.respond .refused))

/-- `RUNINIT` (R195): accepted only in `LOGIN` and `IDLE`. -/
def execRunInit (s : State) : Result :=
  s.direct (.next
    (if s.stage = .login ∧ s.upc = .idle then
      { s with stage := .init, probeHdr := maHeader, attempts := 0, upc := .p1Send }
    else s.respond .refused))

/-- `READDATA pollInterval, sinks, useFurnaceClock` (R215): accepted only in `XCHG` and `IDLE`. -/
def execReadData (ufc : Bool) (sinks : BitVec 3) (pollInterval : Word32) (s : State) : Result :=
  s.direct (.next
    (if s.stage = .xchg ∧ s.upc = .idle then
      { s with
        pollInt := pollInterval
        sinkMask := sinks
        ufc := ufc
        lastHdr := none
        toggle := false
        ts := none
        cycle := 0
        attempts := 0
        upc := .xSend }
    else s.respond .refused))

/-! ### `STOP` and `RDREG`, accepted in every position -/

/-- `STOP` (R230): taken at once, except while a read is in flight, where it is held until the read has ended; a further
`STOP` while one is held responds at once [log 8]. -/
def execStop (s : State) : Result :=
  .next
    (if s.readInFlight then
      if s.stopPending then s.respondOk else { s with stopPending := true }
    else s.takeStop)

/-- `RDREG idx` (R231). -/
def execRdReg (idx : Byte) (s : State) : Result :=
  .next
    (match s.register idx.toNat with
      | some v => s.respond (.ok (.register v))
      | none => s.respond .illegal)

/-! ### The waits, when their timer has expired -/

/-- The end of `AUTH_SLEEP` (R193): reopen, count, then the bound test. -/
def authSleepDone (s : State) : State :=
  let t := { s.reopenLine with retry := satInc s.retry }
  if t.maxRetry.toNat ≤ t.retry.toNat then t.raiseAuthExhausted else { t with upc := .authSend }

/-- The end of `P2_WAIT` (R201) [log 21]. -/
def p2WaitDone (s : State) : State := { s with upc := if s.burst.toNat = Config.p2Count then .p3Send else .p2Send }

/-- The end of `P4_WAIT` (R204). -/
def p4WaitDone (s : State) : State := { s with p4Try := 0, upc := .p4Send }

/-- The end of `X_SLEEP` (R222). -/
def xSleepDone (s : State) : State := { s with cycle := satInc s.cycle, upc := .xSend }

/-! ### The micro-steps that no wire row names -/

/-- One micro-step at a position where `fetchWire` selects no row: a wait that is over, a read of silence or of a one-byte
burst, a pending check. In `IDLE` and `HALT` the sequencer takes no step (10_state.md R31, 60_exceptions.md R274). -/
def microStep (s : State) : Result :=
  match s.upc with
  | .idle => .next s
  | .halt => .next s
  | .authRead => s.onOpenPort (authReadStep s)
  | .authSleep => .next (authSleepDone s)
  | .p1Read => s.onOpenPort (p1ReadStep s)
  | .p2Check => if s.rxPending.isEmpty then .next { s with upc := .p2Wait } else s.onOpenPort (p2CheckRead s)
  | .p2Wait => .next (p2WaitDone s)
  | .p3Read => s.onOpenPort (p3ReadStep s)
  | .p4Wait => .next (p4WaitDone s)
  | .p4Read => s.onOpenPort (p4ReadStep s)
  | .xRead => s.onOpenPort (xReadStep id s)
  | .xSleep => .next (xSleepDone s)
  | .authSend => .fault .noTransition
  | .p1Send => .fault .noTransition
  | .p2Send => .fault .noTransition
  | .p3Send => .fault .noTransition
  | .p4Send => .fault .noTransition
  | .xSend => .fault .noTransition

end Sys2Proof.Machine
end

