-- ==== Sys2Proof/Machine/Transport.lean ====
section
/-!
DEFINITION. The meanings of the transport's operations (41_transport.md R160 to R166), each a direct operation of the host
(60_exceptions.md R280).
-/

namespace Sys2Proof.Machine

/-- `OPEN` (R160). -/
def execOpen (s : State) : Result := s.direct (.next s.openLine.respondOk)

/-- `WRITE fs` (R161): refused when the port is closed or a field of the frame is unset. -/
def execWrite (fs : FrameSel) (s : State) : Result :=
  s.direct (.next
    (match s.portOpen, (s.frame fs).image with
      | true, some img => (s.writeImage (s.frame fs) img).respondOk
      | _, _ => s.respond .refused))

/-- `READ` (R162): refused when the port is closed. It clears `RXF` and `RXBUF`; with a burst waiting it ends at once,
else it is in flight until a burst arrives or the budget elapses [log 7]. -/
def execRead (s : State) : Result :=
  s.direct (.next
    (if s.portOpen then
      if s.rxPending.isEmpty then { s.fillBuffer [] with rxf := .fresh, hostRead := true }
      else s.finishHostRead
    else s.respond .refused))

/-- `CLOSE` (R166). -/
def execClose (s : State) : Result := s.direct (.next s.closeLine.respondOk)

/-- `POLLRX` (R165): refused when the port is closed; else whether a received burst is waiting (20_memory.md R67). -/
def execPollRx (s : State) : Result :=
  s.direct (.next
    (if s.portOpen then s.respond (.ok (.waiting (!s.rxPending.isEmpty))) else s.respond .refused))

end Sys2Proof.Machine
end

