-- ==== Sys2Proof/Machine/Dispatch.lean ====
section
/-! DEFINITION. One arm per row of spec/opcode_table.json, in the table's order. -/

namespace Sys2Proof.Machine

def exec (i : Instr) (s : State) : Host.Outcome State Fault Refusal :=
  match i with
  | .fnew fs => Sys2Proof.Machine.execFnew fs s
  | .setHeader fs v r => Sys2Proof.Machine.execSetHeader fs v r s
  | .setDataSize fs v r => Sys2Proof.Machine.execSetDataSize fs v r s
  | .setData fs v r => Sys2Proof.Machine.execSetData fs v r s
  | .setChecksum fs => Sys2Proof.Machine.execSetChecksum fs s
  | .setChecksumV fs v r => Sys2Proof.Machine.execSetChecksumV fs v r s
  | .prepare fs h d => Sys2Proof.Machine.execPrepare fs h d s
  | .getHeader fs fmt => Sys2Proof.Machine.execGetHeader fs fmt s
  | .getData fs fmt => Sys2Proof.Machine.execGetData fs fmt s
  | .getDataSize fs fmt => Sys2Proof.Machine.execGetDataSize fs fmt s
  | .getChecksum fs fmt => Sys2Proof.Machine.execGetChecksum fs fmt s
  | .getRaw fs => Sys2Proof.Machine.execGetRaw fs s
  | .getHex fs => Sys2Proof.Machine.execGetHex fs s
  | .openPort => Sys2Proof.Machine.execOpen s
  | .write fs => Sys2Proof.Machine.execWrite fs s
  | .read => Sys2Proof.Machine.execRead s
  | .closePort => Sys2Proof.Machine.execClose s
  | .pollRx => Sys2Proof.Machine.execPollRx s
  | .runAuth u m w => Sys2Proof.Machine.execRunAuth u m w s
  | .runInit => Sys2Proof.Machine.execRunInit s
  | .readData c k p => Sys2Proof.Machine.execReadData c k p s
  | .stop => Sys2Proof.Machine.execStop s
  | .rdReg idx => Sys2Proof.Machine.execRdReg idx s
  | .raPlumber => Sys2Proof.Machine.execRaPlumber s
  | .raNormal => Sys2Proof.Machine.execRaNormal s
  | .raNormalAlt => Sys2Proof.Machine.execRaNormalAlt s
  | .raService => Sys2Proof.Machine.execRaService s
  | .maProbe => Sys2Proof.Machine.execMaProbe s
  | .m2Probe => Sys2Proof.Machine.execM2Probe s
  | .rbAck => Sys2Proof.Machine.execRbAck s
  | .m1Req => Sys2Proof.Machine.execM1Req s
  | .m2Req => Sys2Proof.Machine.execM2Req s
  | .m3Req => Sys2Proof.Machine.execM3Req s
  | .echoProbe p q => Sys2Proof.Machine.execEchoProbe p q s
  | .rspMDigit d => Sys2Proof.Machine.execRspMDigit d s
  | .rspM1 => Sys2Proof.Machine.execRspM1 s
  | .rspM2 => Sys2Proof.Machine.execRspM2 s
  | .rspM3 => Sys2Proof.Machine.execRspM3 s
  | .rspOther p q => Sys2Proof.Machine.execRspOther p q s
  | .rspAuth p q => Sys2Proof.Machine.execRspAuth p q s

end Sys2Proof.Machine
end

