-- ==== Sys2Proof/Machine/Schedule.lean ====
section
/-!
DEFINITION. What one step of the machine consists of: a host command, the sequencer's own micro-step, or the taking in of
an outside event; the stop that was held during a read; reset; and where a table word is put for the next step to run it.
-/

namespace Sys2Proof.Machine

/-- One host command (30_encoding.md R98 to R102): the operation it encodes, or the response `ILLEGAL`, which changes no
other state and is decided "before anything else". -/
def hostStep (command : Bytes) (s : State) : Result :=
  match decode .host command with
  | .ok i => exec i s
  | .error _ => .next (s.respond .illegal)

/-- The block's own next micro-step, with nothing from outside: the host's `READ` in flight ends, or the wire row the
sequencer is at runs, or the micro-step that has no row. -/
def ownStep (s : State) : Result :=
  if s.hostRead then .next s.finishHostRead
  else
    match fetchWire s with
    | some i => exec i s
    | none => microStep s

/-- A stop held during a read "is taken when that read has ended and its micro-step has finished, before the next
micro-step" (42_sequencer.md R230): after `AUTH_READ`, so before `AUTH_SLEEP` and its terminal error, whatever
70_reset_and_hazards.md R319 says of `AUTH_READ` [log 29]. -/
def settle : Result → Result
  | .next t => if t.stopPending && !t.readInFlight then .next t.takeStop else .next t
  | o => o

/-- Reset (70_reset_and_hazards.md R300): every register at its reset value, any wait or read in flight cancelled, every
channel empty. What the outside does afterwards, and the clock, are no registers [log 18]. -/
def hardReset (later : List Input) (s : State) : State :=
  { State.reset with inputs := later, clockReads := s.clockReads }

/-! ### Placing a table word -/

/-- The stage in which the sequencer is at a micro-state (10_state.md R32). -/
def stageOf : Upc → Stage
  | .idle => .preinit
  | .authSend => .login
  | .authRead => .login
  | .authSleep => .login
  | .p1Send => .init
  | .p1Read => .init
  | .p2Send => .postInit
  | .p2Check => .postInit
  | .p2Wait => .postInit
  | .p3Send => .postInit
  | .p3Read => .postInit
  | .p4Wait => .postInit
  | .p4Send => .postInit
  | .p4Read => .postInit
  | .xSend => .xchg
  | .xRead => .xchg
  | .xSleep => .xchg
  | .halt => .login

/-- The registers that select a request frame, set for this one (42_sequencer.md R191, R196, R216). -/
def State.selectRequest (s : State) : Instr → State
  | .raPlumber => { s with user := .plumber }
  | .raNormal => { s with user := .normal }
  | .raNormalAlt => { s with user := .normalAlt }
  | .raService => { s with user := .service }
  | .maProbe => { s with probeHdr := maHeader }
  | .echoProbe p q => { s with probeHdr := ⟨p, q⟩ }
  | .m1Req => { s with lastHdr := none, toggle := false }
  | .m2Req => { s with lastHdr := none, toggle := true }
  | .m3Req => { s with lastHdr := some m3Header }
  | _ => s

/-- The shortest good frame with a two-byte header (41_transport.md R163, `n = 5`, `S = 0`). -/
def replyBurst (p q : Byte) : Burst := ⟨p, q :: 0x00 :: be16 (BitVec.ofNat 16 (p.toNat + q.toNat))⟩

/-- The next thing from outside is this host command, and no read ends before it. -/
def State.placeCommand (s : State) (command : Bytes) : State :=
  { s with
    inputs := .host command :: s.inputs
    rxPending := if s.readReady then [] else s.rxPending }

/-- The sequencer at a micro-state with the port open, its next micro-step being the next thing that happens: with an outside
event to come, time passes first. -/
def State.placeAt (s : State) (u : Upc) : State :=
  { s with
    stage := stageOf u
    upc := u
    portOpen := true
    hostRead := false
    inputs := if s.inputs.isEmpty then [] else .elapse :: s.inputs }

/-- The state in which the next step runs exactly this instruction [log 16]. -/
def State.placeInstr (s : State) (i : Instr) : State :=
  match homeChannel i with
  | .host => s.placeCommand (encode i)
  | .tx u => (s.selectRequest i).placeAt u
  | .rx u _ =>
    match encode i with
    | [p, q] => { s with rxPending := replyBurst p q :: s.rxPending }.placeAt u
    | _ => s

/-- A word of spec/opcode_table.json placed for the next step; one the decoder refuses is placed as a host command of its
bytes [log 16]. -/
def State.placeTableWord (s : State) (nbits w : Nat) : State :=
  match decodeTableWord nbits w with
  | some i => s.placeInstr i
  | none => s.placeCommand (tableBytes nbits w)

end Sys2Proof.Machine
end

