-- ==== Sys2Proof/Machine/Step.lean ====
section
/-!
DEFINITION. One step of P2FRAME (20_memory.md R77: one thing at a time), and the placing of a table word where it fetches.
-/

namespace Sys2Proof.Machine

/-- One step. Reset comes first. A read in flight for which a burst waits ends before anything else is taken in (60_exceptions.md
R271) [log 6]. Else the next outside event is taken in: a host command runs, a burst arrives, or time passes and the
block's own micro-step is taken. With no event left, time passes [log 4]. -/
def step (s : State) : Host.Outcome State Fault Refusal :=
  match s.inputs with
  | [] => settle (ownStep s)
  | .reset :: rest => .next (hardReset rest s)
  | .host command :: rest => if s.readReady then settle (ownStep s) else hostStep command { s with inputs := rest }
  | .burst b :: rest => if s.readReady then settle (ownStep s) else .next ({ s with inputs := rest }.arrive b)
  | .elapse :: rest => if s.readReady then settle (ownStep s) else settle (ownStep { s with inputs := rest })

/-- The state with an instruction of spec/opcode_table.json placed where `step` fetches its next one [log 15, log 16]. -/
def State.withFetchWord (s : State) (nbits w : Nat) : State := s.placeTableWord nbits w

end Sys2Proof.Machine
end

