-- ==== Sys2Proof/Safety.lean ====
section
/-!
DEFINITION. What counts as a legal state of P2FRAME and a legal move of its sequencer: the properties that 10_state.md R21,
R23, R32, R36, R40, R41, R43 and 42_sequencer.md R233 give every state a program can reach.
-/

namespace Sys2Proof.Machine

/-- A position of the sequencer. -/
abbrev Position := Stage × Upc

def State.position (s : State) : Position := (s.stage, s.upc)

/-- The legal (STAGE, UPC) pairs (10_state.md R32). -/
def legalPosition : Position → Bool
  | (.preinit, u) => u = .idle
  | (.login, u) => u = .idle || u = .authSend || u = .authRead || u = .authSleep || u = .halt
  | (.init, u) => u = .p1Send || u = .p1Read || u = .halt
  | (.postInit, u) =>
    u = .p2Send || u = .p2Check || u = .p2Wait || u = .p3Send || u = .p3Read || u = .p4Wait || u = .p4Send || u = .p4Read
  | (.xchg, u) => u = .idle || u = .xSend || u = .xRead || u = .xSleep || u = .halt

/-- Every transition of 42_sequencer.md R233 but the last line's, `STOP`, which leads from any position to `stopped`. -/
def transitions : List (Position × Position) :=
  [ ((.preinit, .idle), (.login, .authSend)),
    ((.login, .authSend), (.login, .authRead)),
    ((.login, .authRead), (.login, .idle)),
    ((.login, .authRead), (.login, .authSleep)),
    ((.login, .authSleep), (.login, .authSend)),
    ((.login, .authSleep), (.login, .halt)),
    ((.login, .idle), (.init, .p1Send)),
    ((.init, .p1Send), (.init, .p1Read)),
    ((.init, .p1Read), (.init, .halt)),
    ((.init, .p1Read), (.init, .p1Send)),
    ((.init, .p1Read), (.postInit, .p2Send)) ] ++
  [ ((.postInit, .p2Send), (.postInit, .p2Check)),
    ((.postInit, .p2Check), (.postInit, .p2Wait)),
    ((.postInit, .p2Wait), (.postInit, .p2Send)),
    ((.postInit, .p2Wait), (.postInit, .p3Send)),
    ((.postInit, .p3Send), (.postInit, .p3Read)),
    ((.postInit, .p3Read), (.postInit, .p4Wait)),
    ((.postInit, .p4Wait), (.postInit, .p4Send)),
    ((.postInit, .p4Send), (.postInit, .p4Read)),
    ((.postInit, .p4Read), (.xchg, .idle)),
    ((.postInit, .p4Read), (.postInit, .p4Send)) ] ++
  [ ((.xchg, .idle), (.xchg, .xSend)),
    ((.xchg, .xSend), (.xchg, .xRead)),
    ((.xchg, .xRead), (.xchg, .xSleep)),
    ((.xchg, .xRead), (.xchg, .halt)),
    ((.xchg, .xSleep), (.xchg, .xSend)) ]

/-- Where `STOP` and reset lead (42_sequencer.md R230, 70_reset_and_hazards.md R303). -/
def stopped : Position := (.preinit, .idle)

/-- A frame register within its bounds (10_state.md R21, R23). -/
def Frame.wf (f : Frame) : Bool := (f.hdr.getD []).length ≤ 255 && (f.data.getD []).length ≤ 255

/-- Both frame registers are within their bounds. -/
def State.framesWf (s : State) : Bool := s.txf.wf && s.rxf.wf

/-- The burst buffer: the canonical form, one byte for each address below the fill count and none above it, and the fill
count within the capacity (10_state.md R43, 20_memory.md R62). -/
def State.bufferWf (s : State) : Prop :=
  Memory.wf s.rxbuf = true ∧ s.rxbufN ≤ Config.rxbufCap ∧ ∀ a, (s.rxbuf.read a).isSome = true ↔ a < s.rxbufN

/-- The error record is one that reset or a terminal error writes (10_state.md R40, 60_exceptions.md R275, R276). -/
def ErrRecord.wf (e : ErrRecord) : Bool :=
  match e.kind with
  | .none => e = ⟨.none, .preinit, 0, none⟩
  | .authExhausted => e.stage = .login && e.code = none
  | .initTimeout => e.stage = .init && e.code = some .globalTimeout
  | .commError => e.stage = .xchg && e.code.isSome && e.code != some .checksumFailure

/-- The micro-states that a sequencer operation reaches only after it has opened the port or sent on it. -/
def usesLine : Upc → Bool
  | .p1Send => false
  | .xSend => false
  | u => isRunning u

/-- The line: a closed port has nothing to read and no read in flight; a host's own `READ` is not in flight beside a
running sequencer (41_transport.md R160, R166, 60_exceptions.md R280) [log 7]. -/
def State.lineWf (s : State) : Bool :=
  (s.portOpen || (s.rxPending.isEmpty && !s.hostRead && !usesLine s.upc)) && !(s.hostRead && isRunning s.upc)

/-- A stop is held only while a read is in flight (10_state.md R41, 42_sequencer.md R230). -/
def State.stopWf (s : State) : Bool := !s.stopPending || s.readInFlight

/-- The micro-states after the last probe of phase 2. -/
def pastPhase2 : Upc → Bool
  | .p3Send => true
  | .p3Read => true
  | .p4Wait => true
  | .p4Send => true
  | .p4Read => true
  | _ => false

/-- The phase counters stay in their ranges, and phase 2 has sent exactly 33 probes once it is over (10_state.md R36,
42_sequencer.md R201, R206). -/
def State.countersWf (s : State) : Bool :=
  s.burst.toNat ≤ Config.p2Count && s.p4Try.toNat ≤ Config.p4Max &&
  (s.upc != .p2Send || s.burst.toNat < Config.p2Count) &&
  (s.upc != .p4Send || s.p4Try.toNat < Config.p4Max) &&
  (!(pastPhase2 s.upc || s.stage == .xchg) || s.burst.toNat == Config.p2Count)

/-- The read-only registers hold their constants (10_state.md R34). -/
def State.constantsWf (s : State) : Bool := s.rdBudget = Config.readBudget && s.rdGranule = Config.readGranule

/-- What one list of outputs comes to when more is put out after it: the old is kept, in order (20_memory.md R77). -/
def Extends {α : Type} (old new : List α) : Prop := ∃ more, new = old ++ more

/-- Nothing already put out on a channel is taken back or changed (20_memory.md R64, R65, R68, R69). -/
def OutputsKept (s t : State) : Prop :=
  Extends s.responses t.responses ∧ Extends s.tx t.tx ∧ Extends s.sinks t.sinks ∧ Extends s.log t.log

/-- The result of a `READ` of a burst (41_transport.md R162, R163). -/
def burstResult (b : Burst) : ReadResult := (assemble (b.bytes.take 261)).result

/-- What a `READ` that takes the burst `b`, the first of those that wait, leaves: `RXF` and the log as R163 says, the burst
in `RXBUF` from address 0 up to its capacity (10_state.md R43, 41_transport.md R169), the burst consumed. -/
def State.afterRead (s : State) (b : Burst) (rest : List Burst) : State :=
  { s with
    rxPending := rest
    rxf := (assemble (b.bytes.take 261)).frame
    rxbuf := Memory.store [] 0 (b.bytes.take 261)
    rxbufN := (b.bytes.take 261).length
    log := s.log ++ (assemble (b.bytes.take 261)).events }

/-- What a `READ` of silence leaves: `RXF` fresh and `RXBUF` cleared (41_transport.md R162, R164). -/
def State.afterSilence (s : State) : State :=
  { s with rxf := ⟨none, none, none, none, false, false⟩, rxbuf := [], rxbufN := 0 }

/-- Nothing comes from outside any more, and nothing waits: every read from here on is of silence [log 4]. -/
def State.quiet (s : State) : Prop :=
  s.inputs = [] ∧ s.rxPending = [] ∧ s.hostRead = false ∧ s.stopPending = false

/-- `n` steps of the machine, each answering a next state. -/
def stepsTo : Nat → State → State → Prop
  | 0, s, t => t = s
  | n + 1, s, t => ∃ u, step s = .next u ∧ stepsTo n u t

end Sys2Proof.Machine
end

