-- ==== Sys2Proof/Certificates/Slice0/Obligations.lean ====
section
/-!
DEFINITION. The statements for the provers. A next state is written as a record update of the state before, so that each
result is its own frame: every register, channel and byte that the update does not name keeps its value. `satInc` is the
saturating increment of 10_state.md R36; `State.afterRead` and `State.afterSilence` (Sys2Proof/Safety.lean) are what a read
leaves, and `ReadOfBurst` says what the frame in it is.
-/

open Sys2Proof Sys2Proof.Machine

/-! ### Encodings -/

/-- Every well-formed instruction is read back from its own bytes on its own channel (30_encoding.md R98, R99, R107,
43_wire_frames.md R240 to R256). The bytes of `M2_PROBE` are also `M2_REQ`'s, on another channel [log 15]. -/
def Obligations.DecodeEncode : Prop :=
  ∀ i : Instr, i.wf = true → decode (homeChannel i) (encode i) = .ok i

/-- Each host operation has one encoding, and each reply header one class at each reading micro-state: a command or a header
that decodes is the encoding of what it decodes to (30_encoding.md R98, R99, 43_wire_frames.md R251 to R256) [log 10]. -/
def Obligations.DecodedIsEncoding : Prop :=
  (∀ (c : Bytes) (i : Instr), decode .host c = .ok i → i.wf = true ∧ i.kind = .hostOperation ∧ encode i = c) ∧
  (∀ (u : Upc) (ok : Bool) (c : Bytes) (i : Instr), decode (.rx u ok) c = .ok i → i.kind = .wireReplyClass ∧ encode i = c)

/-- The unassigned opcodes and register numbers (30_encoding.md R102) and the malformed operands (R101) are rejected, and a
rejected command responds `ILLEGAL`, in every position, changing no other state and logging nothing. -/
def Obligations.IllegalEncodings : Prop :=
  (∀ (s : State) (c : Bytes) (rest : List Input), (∀ i, decode .host c ≠ .ok i) → s.readReady = false →
    s.inputs = .host c :: rest →
    step s = .next { s with inputs := rest, responses := s.responses ++ [.illegal] }) ∧
  (∀ (op : Byte) (rest : Bytes),
    (op = 0x00 ∨ op = 0x0E ∨ op = 0x0F ∨ (0x15 ≤ op.toNat ∧ op.toNat ≤ 0x1F) ∨ (0x24 ≤ op.toNat ∧ op.toNat ≤ 0x2F) ∨
      (0x31 ≤ op.toNat ∧ op.toNat ≤ 0xFF)) →
    ∀ i, decode .host (op :: rest) ≠ .ok i) ∧
  (∀ (op fs : Byte) (rest : Bytes),
    op ∈ ([0x01, 0x02, 0x03, 0x04, 0x05, 0x06, 0x07, 0x08, 0x09, 0x0A, 0x0B, 0x0C, 0x0D, 0x11] : Bytes) → 2 ≤ fs.toNat →
    ∀ i, decode .host (op :: fs :: rest) ≠ .ok i) ∧
  (∀ (op fs fmt : Byte) (rest : Bytes), op ∈ ([0x08, 0x09, 0x0A, 0x0B] : Bytes) → 4 ≤ fmt.toNat →
    ∀ i, decode .host (op :: fs :: fmt :: rest) ≠ .ok i) ∧
  (∀ (user : Byte) (rest : Bytes), 4 ≤ user.toNat → ∀ i, decode .host (0x20 :: user :: rest) ≠ .ok i) ∧
  (∀ (op fs flags : Byte) (rest : Bytes), op ∈ ([0x02, 0x03, 0x04, 0x06] : Bytes) → 2 ≤ flags.toNat →
    ∀ i, decode .host (op :: fs :: flags :: rest) ≠ .ok i) ∧
  (∀ (fs pmask : Byte) (rest : Bytes), 4 ≤ pmask.toNat → ∀ i, decode .host (0x07 :: fs :: pmask :: rest) ≠ .ok i) ∧
  (∀ (flags : Byte) (rest : Bytes), 16 ≤ flags.toNat → ∀ i, decode .host (0x22 :: flags :: rest) ≠ .ok i) ∧
  (∀ (op fs flags tag : Byte) (rest : Bytes), op ∈ ([0x02, 0x03, 0x04, 0x06] : Bytes) → 4 ≤ tag.toNat →
    ∀ i, decode .host (op :: fs :: flags :: tag :: rest) ≠ .ok i) ∧
  (∀ (op fs flags tag hi lo : Byte) (rest : Bytes), op ∈ ([0x02, 0x03, 0x04, 0x06] : Bytes) →
    rest.length < 256 * hi.toNat + lo.toNat → ∀ i, decode .host (op :: fs :: flags :: tag :: hi :: lo :: rest) ≠ .ok i) ∧
  (∀ (fs pmask tag hi lo : Byte) (rest : Bytes), 1 ≤ pmask.toNat →
    4 ≤ tag.toNat ∨ rest.length < 256 * hi.toNat + lo.toNat →
    ∀ i, decode .host (0x07 :: fs :: pmask :: tag :: hi :: lo :: rest) ≠ .ok i) ∧
  (∀ (fs tag hi lo : Byte) (h : Operand) (rest : Bytes), h.wf = true →
    4 ≤ tag.toNat ∨ rest.length < 256 * hi.toNat + lo.toNat →
    ∀ i, decode .host (0x07 :: fs :: 3 :: (encodeOperand h ++ tag :: hi :: lo :: rest)) ≠ .ok i) ∧
  (∀ (idx : Byte) (rest : Bytes), 27 ≤ idx.toNat → ∀ i, decode .host (0x30 :: idx :: rest) ≠ .ok i)

/-- A few words written out from the spec's encodings decode to the instructions they stand for: 95_test_vectors.md's K1,
K8 and K10, a `PREPARE` and a `RUNAUTH` of 30_encoding.md R98, and frames and headers of 43_wire_frames.md. -/
def Obligations.SampleWordsDecode : Prop :=
  decode .host [0x02, 0x00, 0x01, 0x01, 0x00, 0x02, 0x4D, 0x41] = .ok (.setHeader .txf true ⟨.rawBytes, [0x4D, 0x41]⟩) ∧
  decode .host [0x03, 0x01, 0x00, 0x00, 0x00, 0x01, 0x02] = .ok (.setDataSize .rxf false ⟨.integer, [0x02]⟩) ∧
  decode .host [0x07, 0x00, 0x02, 0x03, 0x00, 0x01, 0x01] = .ok (.prepare .txf none (some ⟨.integerList, [0x01]⟩)) ∧
  decode .host [0x08, 0x01, 0x02] = .ok (.getHeader .rxf .hexDigits) ∧
  decode .host [0x20, 0x02, 0x00, 0x03, 0x00, 0x00, 0x03, 0xE8] = .ok (.runAuth .normalAlt 3 1000) ∧
  decode .host [0x22, 0x0B, 0x00, 0x00, 0x07, 0xD0] = .ok (.readData true 5 2000) ∧
  decode .host [0x30, 0x1A] = .ok (.rdReg 26) ∧
  decode (.tx .authSend) [0x52, 0x61, 0x03, 0x00, 0xFF, 0xF9, 0x02, 0xAE, 0x0D] = .ok .raService ∧
  decode (.tx .p1Send) [0x41, 0x10, 0x01, 0x01, 0x00, 0x53, 0x0D] = .ok (.echoProbe 0x41 (some 0x10)) ∧
  decode (.tx .p4Send) [0x4D, 0x32, 0x01, 0x01, 0x00, 0x81, 0x0D] = .ok .m2Probe ∧
  decode (.tx .xSend) [0x4D, 0x32, 0x01, 0x01, 0x00, 0x81, 0x0D] = .ok .m2Req ∧
  decode (.rx .p1Read false) [0x4D, 0x3F] = .ok (.rspMDigit 0xF) ∧
  decode (.rx .p1Read true) [0x4D, 0x20] = .ok (.rspOther 0x4D 0x20) ∧
  decode (.rx .xRead true) [0x4D, 0x31] = .ok .rspM1 ∧
  decode (.rx .authRead true) [0x52, 0x61] = .ok (.rspAuth 0x52 0x61)

/-! ### A step -/

/-- With no read about to end, a step that takes in a host command runs the operation the command encodes, with the command
consumed and nothing else around it (20_memory.md R64, R77, 30_encoding.md R98). -/
def Obligations.StepRunsHostCommand : Prop :=
  ∀ (s : State) (i : Instr) (rest : List Input), i.wf = true → i.kind = .hostOperation → s.readReady = false →
    s.inputs = .host (encode i) :: rest → step s = exec i { s with inputs := rest }

/-- The row the sequencer is at is told by the bytes of the line: a sending micro-state's row is the one its outbound bytes
decode to there, and a reading micro-state's is the one the first two bytes of the burst that waits decode to
(43_wire_frames.md R240 to R256, 30_encoding.md R107). -/
def Obligations.FetchIsDecode : Prop :=
  ∀ s : State,
    (∀ i, fetchRequest s = some i → decode (.tx s.upc) (encode i) = .ok i ∧ fetchWire s = some i) ∧
    (∀ (b : Burst) (rest : List Burst) (q : Byte) (r : Bytes), s.rxPending = b :: rest → b.rest = q :: r →
      isReading s.upc = true ∨ s.upc = .p2Check →
      (decode (.rx s.upc (decide (burstResult b = .ok))) [b.first, q]).toOption = fetchWire s)

/-- A step that is the sequencer's own runs the wire row the sequencer is at: when time passes, when nothing comes from
outside any more, or when the burst the read waits for is there. Around it, only a stop that was held is taken
(42_sequencer.md R230, R233). That time passes when nothing comes from outside any more [log 4], and that a burst which is there
ends the read before any event but a reset is taken in [log 6], are the model's reading. -/
def Obligations.StepRunsWireRow : Prop :=
  ∀ (s : State) (i : Instr) (rest : List Input), s.hostRead = false →
    (fetchWire s = some i → s.inputs = [] → step s = settle (exec i s)) ∧
    (fetchWire s = some i → s.readReady = true → (∀ r, s.inputs ≠ .reset :: r) → step s = settle (exec i s)) ∧
    (fetchWire s = some i → s.readReady = false → s.inputs = .elapse :: rest →
      step s = settle (exec i { s with inputs := rest })) ∧
    (∀ t : State, settle (.next t) = if t.stopPending = true ∧ t.readInFlight = false then .next t.takeStop else .next t)

/-- A burst that arrives while no read is about to end waits to be read when the port is open, and is discarded when it is
closed (41_transport.md R160, 60_exceptions.md R270, R285). -/
def Obligations.BurstArrives : Prop :=
  ∀ (s : State) (b : Burst) (rest : List Input), s.readReady = false → s.inputs = .burst b :: rest →
    (s.portOpen = true → step s = .next { s with inputs := rest, rxPending := s.rxPending ++ [b] }) ∧
    (s.portOpen = false → step s = .next { s with inputs := rest })

/-- Reset puts every register at the value of 10_state.md R46, whatever the state, and empties every channel
(70_reset_and_hazards.md R300). That what the outside does later and the clock's samples are kept is the model's choice
[log 18]. -/
def Obligations.ResetValues : Prop :=
  ∀ (s : State) (rest : List Input), s.inputs = .reset :: rest →
    step s = .next
      { txf := ⟨none, none, none, none, false, false⟩, rxf := ⟨none, none, none, none, false, false⟩, rxbuf := [], rxbufN := 0
        stage := .preinit, upc := .idle, portOpen := false, rdBudget := 10000, rdGranule := 10, hostRead := false
        user := .plumber, maxRetry := 0, retryWait := 0, pollInt := 0, sinkMask := 0, ufc := false
        retry := 0, attempts := 0, burst := 0, p4Try := 0, cycle := 0
        probeHdr := ⟨0x4D, some 0x41⟩, lastHdr := none, toggle := false, ts := none, stopPending := false
        err := ⟨.none, .preinit, 0, none⟩, responses := [], tx := [], sinks := [], log := [], rxPending := []
        inputs := rest, clockReads := s.clockReads }

/-! ### Arithmetic and operands -/

/-- The checksum is `(n + sum(h) + sum(d)) mod 65536` (40_codec.md R120), does not depend on the order of the bytes within
header or data, and with a two-byte header and at most 255 data bytes wraps at most once (R121). A
counter counts by one and saturates at its maximum (10_state.md R36). -/
def Obligations.ChecksumAndCounters : Prop :=
  (∀ (h d : Bytes) (n : Byte),
    (checksum h n d).toNat = (n.toNat + (h.map BitVec.toNat).sum + (d.map BitVec.toNat).sum) % 65536 ∧
    (∀ h' d' : Bytes, h'.Perm h → d'.Perm d → checksum h' n d' = checksum h n d) ∧
    (h.length = 2 → d.length ≤ 255 → n.toNat + (h.map BitVec.toNat).sum + (d.map BitVec.toNat).sum ≤ 65790)) ∧
  (∀ (w : Nat) (c : BitVec w), (satInc c).toNat = min (c.toNat + 1) (2 ^ w - 1))

/-- `decode_bytes` and `decode_size` (40_codec.md R122): RawBytes and IntegerList give the payload; HexDigits give one byte
for two digits of `0-9`, `A-F`, `a-f`, and are rejected for an odd length or another character; Integer is a TypeMismatch;
a size is an Integer of 0 to 255 or one raw byte. The hex digits the block writes are uppercase, two a byte (00_scope.md R13),
and are read back as the same bytes. -/
def Obligations.OperandConversions : Prop :=
  (∀ p : Bytes, decodeBytes ⟨.rawBytes, p⟩ = some p ∧ decodeBytes ⟨.integerList, p⟩ = some p ∧
    decodeBytes ⟨.integer, p⟩ = none) ∧
  (∀ p s : Bytes, decodeBytes ⟨.hexDigits, p⟩ = some s ↔
    p.length = 2 * s.length ∧
    ∀ k, k < s.length → ∃ (x y : BitVec 4) (b : Byte), p[2 * k]?.bind digitValue = some x ∧
      p[2 * k + 1]?.bind digitValue = some y ∧ s[k]? = some b ∧ b.toNat = 16 * x.toNat + y.toNat) ∧
  (∀ (c : Byte) (x : BitVec 4), digitValue c = some x ↔
    (0x30 ≤ c.toNat ∧ c.toNat ≤ 0x39 ∧ x.toNat = c.toNat - 0x30) ∨
    (0x41 ≤ c.toNat ∧ c.toNat ≤ 0x46 ∧ x.toNat = c.toNat - 0x41 + 10) ∨
    (0x61 ≤ c.toNat ∧ c.toNat ≤ 0x66 ∧ x.toNat = c.toNat - 0x61 + 10)) ∧
  (∀ p : Bytes, (unbe p ≤ 255 → decodeSize ⟨.integer, p⟩ = .value (BitVec.ofNat 8 (unbe p))) ∧
    (255 < unbe p → decodeSize ⟨.integer, p⟩ = .refused) ∧ (p.length ≠ 1 → decodeSize ⟨.rawBytes, p⟩ = .refused) ∧
    decodeSize ⟨.hexDigits, p⟩ = .typeMismatch ∧ decodeSize ⟨.integerList, p⟩ = .typeMismatch) ∧
  (∀ b : Byte, decodeSize ⟨.rawBytes, [b]⟩ = .value b) ∧
  (∀ s : Bytes, unhex (hexOf s) = some s ∧ (hexOf s).length = 2 * s.length ∧
    ∀ c ∈ hexOf s, (0x30 ≤ c.toNat ∧ c.toNat ≤ 0x39) ∨ (0x41 ≤ c.toNat ∧ c.toNat ≤ 0x46))

/-- The bytes of each response (30_encoding.md R100): a status byte, then the payload. An accessor's payload is a repr
operand whose integer form has the field's own bytes. -/
def Obligations.ResponseBytes : Prop :=
  Response.bytes (.ok .empty) = [0x00] ∧ Response.bytes .typeMismatch = [0x10] ∧ Response.bytes .sizeMismatch = [0x11] ∧
  Response.bytes .refused = [0x40] ∧ Response.bytes .illegal = [0x41] ∧
  Response.bytes (.ok .unset) = [0x00, 0xFF, 0x00, 0x00] ∧
  Response.bytes (.commError .checksumFailure) = [0x20, 2] ∧ Response.bytes (.commError .globalTimeout) = [0x20, 9] ∧
  Response.bytes (.commError .headerBoundary) = [0x20, 10] ∧ Response.bytes (.commError .sizeBoundary) = [0x20, 11] ∧
  Response.bytes (.commError .dataBoundary) = [0x20, 12] ∧ Response.bytes (.commError .checksumBoundary) = [0x20, 13] ∧
  (∀ n : Word32, Response.bytes (.protocolFatal .authExhausted .login n) = [0x30, 1, 1] ++ be32 n ∧
    Response.bytes (.protocolFatal .initTimeout .init n) = [0x30, 2, 2] ++ be32 n) ∧
  (∀ s : Bytes, Response.bytes (.ok (.field .integer s)) = [0x00, 0x00] ++ be16 (BitVec.ofNat 16 s.length) ++ s ∧
    Response.bytes (.ok (.field .rawBytes s)) = [0x00, 0x01] ++ be16 (BitVec.ofNat 16 s.length) ++ s ∧
    Response.bytes (.ok (.field .hexDigits s)) =
      [0x00, 0x02] ++ be16 (BitVec.ofNat 16 (2 * s.length)) ++ hexOf s ∧
    Response.bytes (.ok (.field .integerList s)) = [0x00, 0x03] ++ be16 (BitVec.ofNat 16 s.length) ++ s) ∧
  (∀ (i r : Bool) (s : Bytes), Response.bytes (.ok (.image i r s)) =
    [0x00, (if i then 1 else 0) + (if r then 2 else 0)] ++ be16 (BitVec.ofNat 16 s.length) ++ s) ∧
  (∀ s : Bytes, Response.bytes (.ok (.hex s)) = [0x00] ++ be16 (BitVec.ofNat 16 s.length) ++ s) ∧
  (∀ b : Bool, Response.bytes (.ok (.waiting b)) = [0x00, if b then 1 else 0]) ∧
  (∀ v : Word64, ∃ p : Bytes, Response.bytes (.ok (.register v)) = 0x00 :: p ∧ p.length = 8 ∧ unbe p = v.toNat)

/-! ### The frame codec -/

/-- `FNEW` makes the selected frame register a fresh frame (40_codec.md R124, 10_state.md R24), and an
operation on one frame register writes no other (R20, R28). -/
def Obligations.FnewResult : Prop :=
  ∀ s : State, isRunning s.upc = false → s.hostRead = false →
    (∀ fs, encode (.fnew fs) = [0x01, fs.code]) ∧
    exec (.fnew .txf) s = .next
      { s with txf := ⟨none, none, none, none, false, false⟩, responses := s.responses ++ [.ok .empty] } ∧
    exec (.fnew .rxf) s = .next
      { s with rxf := ⟨none, none, none, none, false, false⟩, responses := s.responses ++ [.ok .empty] } ∧
    (∀ f : Frame, s.frame .txf = s.txf ∧ s.frame .rxf = s.rxf ∧
      s.setFrame .txf f = { s with txf := f } ∧ s.setFrame .rxf f = { s with rxf := f })

/-- `SETHEADER` stores the header as given and clears `valid` for a length other than 2; it never raises `valid`
(40_codec.md R125). -/
def Obligations.SetHeaderResult : Prop :=
  ∀ (fs : FrameSel) (v : Bool) (r : Operand) (s : State), isRunning s.upc = false → s.hostRead = false →
    encode (.setHeader fs v r) = [0x02, fs.code, if v then 1 else 0] ++ encodeOperand r ∧
    (∀ h, decodeBytes r = some h → h.length ≤ 255 →
      exec (.setHeader fs v r) s = .next
        { s.setFrame fs
            { s.frame fs with hdr := some h, valid := if h.length = 2 then (s.frame fs).valid else false } with
          responses := s.responses ++ [.ok .empty] }) ∧
    (∀ h, decodeBytes r = some h → 255 < h.length →
      exec (.setHeader fs v r) s = .next { s with responses := s.responses ++ [.refused] }) ∧
    (decodeBytes r = none → exec (.setHeader fs v r) s = .next { s with responses := s.responses ++ [.typeMismatch] })

/-- `SETDATASIZE` stores the size, or fails with a size mismatch when it verifies and data of another length is set
(40_codec.md R126). -/
def Obligations.SetDataSizeResult : Prop :=
  ∀ (fs : FrameSel) (v : Bool) (r : Operand) (s : State), isRunning s.upc = false → s.hostRead = false →
    encode (.setDataSize fs v r) = [0x03, fs.code, if v then 1 else 0] ++ encodeOperand r ∧
    (∀ n, decodeSize r = .value n → (v = true → ∀ d, (s.frame fs).data = some d → d.length = n.toNat) →
      exec (.setDataSize fs v r) s = .next
        { s.setFrame fs { s.frame fs with size := some n } with responses := s.responses ++ [.ok .empty] }) ∧
    (∀ n d, decodeSize r = .value n → v = true → (s.frame fs).data = some d → d.length ≠ n.toNat →
      exec (.setDataSize fs v r) s = .next { s with responses := s.responses ++ [.sizeMismatch] }) ∧
    (decodeSize r = .typeMismatch →
      exec (.setDataSize fs v r) s = .next { s with responses := s.responses ++ [.typeMismatch] }) ∧
    (decodeSize r = .refused → exec (.setDataSize fs v r) s = .next { s with responses := s.responses ++ [.refused] })

/-- `SETDATA` stores the data, derives an unset size, keeps a size that is set, and fails with a size mismatch when it
verifies against a size of another value (40_codec.md R127). -/
def Obligations.SetDataResult : Prop :=
  ∀ (fs : FrameSel) (v : Bool) (r : Operand) (s : State), isRunning s.upc = false → s.hostRead = false →
    encode (.setData fs v r) = [0x04, fs.code, if v then 1 else 0] ++ encodeOperand r ∧
    (∀ d, decodeBytes r = some d → d.length ≤ 255 → (s.frame fs).size = none →
      exec (.setData fs v r) s = .next
        { s.setFrame fs { s.frame fs with data := some d, size := some (BitVec.ofNat 8 d.length) } with
          responses := s.responses ++ [.ok .empty] }) ∧
    (∀ d n, decodeBytes r = some d → d.length ≤ 255 → (s.frame fs).size = some n → (v = false ∨ n.toNat = d.length) →
      exec (.setData fs v r) s = .next
        { s.setFrame fs { s.frame fs with data := some d } with responses := s.responses ++ [.ok .empty] }) ∧
    (∀ d n, decodeBytes r = some d → d.length ≤ 255 → (s.frame fs).size = some n → v = true → n.toNat ≠ d.length →
      exec (.setData fs v r) s = .next { s with responses := s.responses ++ [.sizeMismatch] }) ∧
    (∀ d, decodeBytes r = some d → 255 < d.length →
      exec (.setData fs v r) s = .next { s with responses := s.responses ++ [.refused] }) ∧
    (decodeBytes r = none → exec (.setData fs v r) s = .next { s with responses := s.responses ++ [.typeMismatch] })

/-- `SETCHECKSUM` stores the sum of the stored fields, and is refused while header, size or data is unset (40_codec.md
R128). `SETCHECKSUMV` stores a supplied checksum; with `verify` it compares it with the recomputed one and clears `valid` on a
mismatch, logging it; a value that is not two bytes stores nothing and clears `valid` (R129). -/
def Obligations.ChecksumSetters : Prop :=
  (∀ (fs : FrameSel) (s : State), isRunning s.upc = false → s.hostRead = false →
    encode (.setChecksum fs) = [0x05, fs.code] ∧
    (∀ h n d, (s.frame fs).hdr = some h → (s.frame fs).size = some n → (s.frame fs).data = some d →
      exec (.setChecksum fs) s = .next
        { s.setFrame fs { s.frame fs with csum := some (checksum h n d), csumExt := false } with
          responses := s.responses ++ [.ok .empty] }) ∧
    ((s.frame fs).hdr = none ∨ (s.frame fs).size = none ∨ (s.frame fs).data = none →
      exec (.setChecksum fs) s = .next { s with responses := s.responses ++ [.refused] })) ∧
  (∀ (fs : FrameSel) (v : Bool) (r : Operand) (s : State), isRunning s.upc = false → s.hostRead = false →
    encode (.setChecksumV fs v r) = [0x06, fs.code, if v then 1 else 0] ++ encodeOperand r ∧
    (decodeBytes r = none →
      exec (.setChecksumV fs v r) s = .next { s with responses := s.responses ++ [.typeMismatch] }) ∧
    (∀ b, decodeBytes r = some b → b.length ≠ 2 →
      exec (.setChecksumV fs v r) s = .next
        { s.setFrame fs { s.frame fs with valid := false } with
          responses := s.responses ++ [.ok .empty], log := s.log ++ [.wCsumLen] }) ∧
    (∀ p q, decodeBytes r = some [p, q] → v = false →
      exec (.setChecksumV fs v r) s = .next
        { s.setFrame fs { s.frame fs with csum := some (BitVec.ofNat 16 (256 * p.toNat + q.toNat)), csumExt := true } with
          responses := s.responses ++ [.ok .empty] }) ∧
    (∀ p q, decodeBytes r = some [p, q] → v = true →
      (s.frame fs).hdr = none ∨ (s.frame fs).size = none ∨ (s.frame fs).data = none →
      exec (.setChecksumV fs v r) s = .next { s with responses := s.responses ++ [.refused] }) ∧
    (∀ p q h n d, decodeBytes r = some [p, q] → v = true → (s.frame fs).hdr = some h → (s.frame fs).size = some n →
      (s.frame fs).data = some d → 256 * p.toNat + q.toNat = (checksum h n d).toNat →
      exec (.setChecksumV fs v r) s = .next
        { s.setFrame fs { s.frame fs with csum := some (checksum h n d), csumExt := true } with
          responses := s.responses ++ [.ok .empty] }) ∧
    (∀ p q h n d, decodeBytes r = some [p, q] → v = true → (s.frame fs).hdr = some h → (s.frame fs).size = some n →
      (s.frame fs).data = some d → 256 * p.toNat + q.toNat ≠ (checksum h n d).toNat →
      exec (.setChecksumV fs v r) s = .next
        { s.setFrame fs
            { s.frame fs with
              csum := some (BitVec.ofNat 16 (256 * p.toNat + q.toNat)), csumExt := true, valid := false } with
          responses := s.responses ++ [.ok .empty], log := s.log ++ [.wCsumMismatch] }))

/-- `PREPARE` writes the operands that are present and, once header and data are both set, size, checksum and validity
with them, and changes nothing when either operand is not accepted (40_codec.md R130). Which of a TypeMismatch and a
refusal is reported when both apply is the model's reading of 60_exceptions.md R271 [log 24]. -/
def Obligations.PrepareResult : Prop :=
  ∀ (fs : FrameSel) (ho dop : Option Operand) (s : State), isRunning s.upc = false → s.hostRead = false →
    (∀ (hb db : Option Bytes), ho.map decodeBytes = hb.map some → dop.map decodeBytes = db.map some →
      ((∀ b, hb = some b → b.length ≤ 255) → (∀ b, db = some b → b.length ≤ 255) →
        (∀ h d, hb.or (s.frame fs).hdr = some h → db.or (s.frame fs).data = some d →
          exec (.prepare fs ho dop) s = .next
            { s.setFrame fs
                ⟨some h, some (BitVec.ofNat 8 d.length), some d, some (checksum h (BitVec.ofNat 8 d.length) d), false,
                  decide (h.length = 2)⟩ with
              responses := s.responses ++ [.ok .empty] }) ∧
        (hb.or (s.frame fs).hdr = none ∨ db.or (s.frame fs).data = none →
          exec (.prepare fs ho dop) s = .next
            { s.setFrame fs
                { s.frame fs with
                  hdr := hb.or (s.frame fs).hdr
                  data := db.or (s.frame fs).data
                  valid := if ∃ h, hb = some h ∧ h.length ≠ 2 then false else (s.frame fs).valid } with
              responses := s.responses ++ [.ok .empty] })) ∧
      ((∃ b, hb = some b ∧ 255 < b.length) ∨ (∃ b, db = some b ∧ 255 < b.length) →
        exec (.prepare fs ho dop) s = .next { s with responses := s.responses ++ [.refused] })) ∧
    (ho.map decodeBytes = some none ∨ dop.map decodeBytes = some none →
      exec (.prepare fs ho dop) s = .next { s with responses := s.responses ++ [.typeMismatch] })

/-- The accessors answer the stored field, or the unset marker, and change nothing (40_codec.md R131 to R134). -/
def Obligations.AccessorResults : Prop :=
  ∀ (fs : FrameSel) (fmt : Fmt) (s : State), isRunning s.upc = false → s.hostRead = false →
    (encode (.getHeader fs fmt) = [0x08, fs.code, fmt.code] ∧ encode (.getData fs fmt) = [0x09, fs.code, fmt.code] ∧
      encode (.getDataSize fs fmt) = [0x0A, fs.code, fmt.code] ∧
      encode (.getChecksum fs fmt) = [0x0B, fs.code, fmt.code]) ∧
    (∀ b, (s.frame fs).hdr = some b →
      exec (.getHeader fs fmt) s = .next { s with responses := s.responses ++ [.ok (.field fmt b)] }) ∧
    ((s.frame fs).hdr = none → exec (.getHeader fs fmt) s = .next { s with responses := s.responses ++ [.ok .unset] }) ∧
    (∀ b, (s.frame fs).data = some b →
      exec (.getData fs fmt) s = .next { s with responses := s.responses ++ [.ok (.field fmt b)] }) ∧
    ((s.frame fs).data = none → exec (.getData fs fmt) s = .next { s with responses := s.responses ++ [.ok .unset] }) ∧
    (∀ n, (s.frame fs).size = some n →
      exec (.getDataSize fs fmt) s = .next { s with responses := s.responses ++ [.ok (.field fmt [n])] }) ∧
    ((s.frame fs).size = none →
      exec (.getDataSize fs fmt) s = .next { s with responses := s.responses ++ [.ok .unset] }) ∧
    (∀ c : Word16, (s.frame fs).csum = some c →
      exec (.getChecksum fs fmt) s = .next
        { s with responses := s.responses ++ [.ok (.field fmt [(c >>> 8).setWidth 8, c.setWidth 8])] }) ∧
    ((s.frame fs).csum = none →
      exec (.getChecksum fs fmt) s = .next { s with responses := s.responses ++ [.ok .unset] })

/-- `GETRAW` answers the image built from the stored fields as they are, with the two independent warnings, and is refused
while a field is unset (40_codec.md R135). `GETHEX` answers the hex digits of the same image and logs nothing (R136). -/
def Obligations.ImageResults : Prop :=
  ∀ (fs : FrameSel) (s : State), isRunning s.upc = false → s.hostRead = false →
    encode (.getRaw fs) = [0x0C, fs.code] ∧
    (∀ h n d c, (s.frame fs).hdr = some h → (s.frame fs).size = some n → (s.frame fs).data = some d →
      (s.frame fs).csum = some c →
      exec (.getRaw fs) s = .next
        { s with
          responses := s.responses ++
            [.ok (.image (!(s.frame fs).valid) (decide (c ≠ checksum h n d)) (h ++ [n] ++ d ++ be16 c))]
          log := s.log ++ (if (s.frame fs).valid = false then [.wRawInvalid] else []) ++
            (if c ≠ checksum h n d then [.wRawReverify] else []) }) ∧
    ((s.frame fs).hdr = none ∨ (s.frame fs).size = none ∨ (s.frame fs).data = none ∨ (s.frame fs).csum = none →
      exec (.getRaw fs) s = .next { s with responses := s.responses ++ [.refused] }) ∧
    encode (.getHex fs) = [0x0D, fs.code] ∧
    (∀ h n d c, (s.frame fs).hdr = some h → (s.frame fs).size = some n → (s.frame fs).data = some d →
      (s.frame fs).csum = some c →
      exec (.getHex fs) s = .next { s with responses := s.responses ++ [.ok (.hex (hexOf (h ++ [n] ++ d ++ be16 c)))] }) ∧
    ((s.frame fs).hdr = none ∨ (s.frame fs).size = none ∨ (s.frame fs).data = none ∨ (s.frame fs).csum = none →
      exec (.getHex fs) s = .next { s with responses := s.responses ++ [.refused] })

/-- A frame that `PREPARE` builds from a two-byte header and at most 255 data bytes is read back by `READ` with the same
header, data and checksum, and valid (40_codec.md R138). -/
def Obligations.CodecRoundTrip : Prop :=
  ∀ (fs : FrameSel) (h d : Bytes) (s : State), h.length = 2 → d.length ≤ 255 → isRunning s.upc = false →
    s.hostRead = false →
    ∃ (s1 s2 s3 : State) (img : Bytes),
      exec (.fnew fs) s = .next s1 ∧ exec (.prepare fs (some ⟨.rawBytes, h⟩) (some ⟨.rawBytes, d⟩)) s1 = .next s2 ∧
      exec (.getRaw fs) s2 = .next s3 ∧ s3.responses = s2.responses ++ [.ok (.image false false img)] ∧
      ∀ (u : State) (b : Burst) (rest : List Burst), isRunning u.upc = false → u.hostRead = false → u.portOpen = true →
        u.rxPending = b :: rest → b.bytes = img →
        ∃ v : State, exec .read u = .next v ∧ v.responses = u.responses ++ [.ok .empty] ∧
          v.rxf = ⟨some h, some (BitVec.ofNat 8 d.length), some d, some (checksum h (BitVec.ofNat 8 d.length) d), true, true⟩

/-- A burst that reads back valid and is changed in exactly one of its last two bytes is read with code 2 and `valid = 0`
(40_codec.md R139). -/
def Obligations.ChecksumFlipCaught : Prop :=
  ∀ (body : Bytes) (p q p' q' : Byte), (assemble (body ++ [p, q])).result = .ok → (p' ≠ p ∧ q' = q) ∨ (p' = p ∧ q' ≠ q) →
    (assemble (body ++ [p', q'])).result = .err .checksumFailure ∧ (assemble (body ++ [p', q'])).frame.valid = false

/-! ### The transport -/

/-- `READ` of a burst: the eight rows of 41_transport.md R163 for the burst's bytes `b`, with the log events of each. A
burst longer than the buffer is cut at 261 bytes and read with code 12, as it would be uncut (R169); what the buffer then
holds at each address is the kept byte of that index (20_memory.md R62). -/
def Obligations.ReadOfBurst : Prop :=
  (∀ x : Byte, assemble [x] = ⟨⟨some [x], none, none, none, false, false⟩, .err .headerBoundary, []⟩) ∧
  (∀ x y : Byte, assemble [x, y] = ⟨⟨some [x, y], none, none, none, false, false⟩, .err .headerBoundary, []⟩) ∧
  (∀ x y z : Byte, assemble [x, y, z] = ⟨⟨some [x, y], some z, none, none, false, false⟩, .err .sizeBoundary, []⟩) ∧
  (∀ x y z w : Byte, z ≠ 0 →
    assemble [x, y, z, w] = ⟨⟨some [x, y], some z, none, none, false, false⟩, .err .dataBoundary, []⟩) ∧
  (∀ x y w : Byte,
    assemble [x, y, 0, w] = ⟨⟨some [x, y], some 0, some [], none, false, false⟩, .err .checksumBoundary, []⟩) ∧
  (∀ (x y z p q : Byte) (d : Bytes), d.length ≠ z.toNat →
    assemble ([x, y, z] ++ d ++ [p, q]) = ⟨⟨some [x, y], some z, none, none, false, false⟩, .err .dataBoundary, []⟩) ∧
  (∀ (x y z p q : Byte) (d : Bytes), d.length = z.toNat → unbe [p, q] ≠ (checksum [x, y] z d).toNat →
    assemble ([x, y, z] ++ d ++ [p, q]) =
      ⟨⟨some [x, y], some z, some d, some (BitVec.ofNat 16 (unbe [p, q])), true, false⟩, .err .checksumFailure,
        [.wCsumMismatch]⟩) ∧
  (∀ (x y z p q : Byte) (d : Bytes), d.length = z.toNat → unbe [p, q] = (checksum [x, y] z d).toNat →
    assemble ([x, y, z] ++ d ++ [p, q]) =
      ⟨⟨some [x, y], some z, some d, some (checksum [x, y] z d), true, true⟩, .ok, []⟩) ∧
  (∀ b : Bytes, 261 ≤ b.length → (assemble (b.take 261)).result = .err .dataBoundary ∧ assemble b = assemble (b.take 261)) ∧
  (∀ (s : State) (x : Burst) (rest : List Burst),
    (s.afterRead x rest).rxbufN = min x.bytes.length 261 ∧
    ∀ a, (s.afterRead x rest).rxbuf.read a = if a < 261 then x.bytes[a]? else none)

/-- `OPEN`, `CLOSE` and `POLLRX` (41_transport.md R160, R166, R165): opening discards what came before, an open port stays as it is, and
closing loses what is unread; polling answers whether a received byte is waiting, changes nothing, and is refused with the
port closed. -/
def Obligations.PortOperations : Prop :=
  ∀ s : State, isRunning s.upc = false → s.hostRead = false →
    encode .openPort = [0x10] ∧ encode .closePort = [0x13] ∧
    (s.portOpen = false →
      exec .openPort s = .next { s with portOpen := true, rxPending := [], responses := s.responses ++ [.ok .empty] }) ∧
    (s.portOpen = true → exec .openPort s = .next { s with responses := s.responses ++ [.ok .empty] }) ∧
    exec .closePort s = .next { s with portOpen := false, rxPending := [], responses := s.responses ++ [.ok .empty] } ∧
    encode .pollRx = [0x14] ∧
    (s.portOpen = true → s.rxPending = [] →
      exec .pollRx s = .next { s with responses := s.responses ++ [.ok (.waiting false)] }) ∧
    (s.portOpen = true → s.rxPending ≠ [] →
      exec .pollRx s = .next { s with responses := s.responses ++ [.ok (.waiting true)] }) ∧
    (s.portOpen = false → exec .pollRx s = .next { s with responses := s.responses ++ [.refused] })

/-- `WRITE` puts the frame image and the terminator on the line, with `GETRAW`'s two warnings logged, and is refused with
the port closed or a field unset (41_transport.md R161). -/
def Obligations.WriteResult : Prop :=
  ∀ (fs : FrameSel) (s : State), isRunning s.upc = false → s.hostRead = false →
    encode (.write fs) = [0x11, fs.code] ∧
    (∀ h n d c, (s.frame fs).hdr = some h → (s.frame fs).size = some n → (s.frame fs).data = some d →
      (s.frame fs).csum = some c → s.portOpen = true →
      exec (.write fs) s = .next
        { s with
          tx := s.tx ++ (h ++ [n] ++ d ++ be16 c ++ [0x0D])
          responses := s.responses ++ [.ok .empty]
          log := s.log ++ (if (s.frame fs).valid = false then [.wRawInvalid] else []) ++
            (if c ≠ checksum h n d then [.wRawReverify] else []) }) ∧
    (s.portOpen = false ∨ (s.frame fs).hdr = none ∨ (s.frame fs).size = none ∨ (s.frame fs).data = none ∨
        (s.frame fs).csum = none →
      exec (.write fs) s = .next { s with responses := s.responses ++ [.refused] })

/-- A host's `READ` (41_transport.md R162 to R164): refused with the port closed; of a burst that waits it takes the first
and responds `OK` or the code; with none it is in flight, and ends, when the budget has elapsed in silence, with a
fresh `RXF` and code 9. That it is in flight as a state of its own [log 7], that nothing from outside is silence [log 4], and that
a burst which is there ends it before any event but a reset is taken in [log 6], are the model's choice. -/
def Obligations.ReadResult : Prop :=
  ∀ s : State, isRunning s.upc = false →
    encode .read = [0x12] ∧
    (s.hostRead = false → s.portOpen = false → exec .read s = .next { s with responses := s.responses ++ [.refused] }) ∧
    (∀ b rest, s.hostRead = false → s.portOpen = true → s.rxPending = b :: rest → burstResult b = .ok →
      exec .read s = .next { s.afterRead b rest with responses := s.responses ++ [.ok .empty] }) ∧
    (∀ b rest c, s.hostRead = false → s.portOpen = true → s.rxPending = b :: rest → burstResult b = .err c →
      exec .read s = .next { s.afterRead b rest with responses := s.responses ++ [.commError c] }) ∧
    (s.hostRead = false → s.portOpen = true → s.rxPending = [] →
      exec .read s = .next { s.afterSilence with hostRead := true }) ∧
    (s.hostRead = true → s.rxPending = [] → s.stopPending = false → s.inputs = [] →
      step s = .next
        { s.afterSilence with hostRead := false, responses := s.responses ++ [.commError .globalTimeout] }) ∧
    (∀ rest, s.hostRead = true → s.rxPending = [] → s.stopPending = false → s.inputs = .elapse :: rest →
      step s = .next
        { s.afterSilence with
          inputs := rest, hostRead := false, responses := s.responses ++ [.commError .globalTimeout] }) ∧
    (∀ b rest, s.hostRead = true → s.rxPending = b :: rest → s.stopPending = false → (∀ r, s.inputs ≠ .reset :: r) →
      ∃ r, step s = .next { s.afterRead b rest with hostRead := false, responses := s.responses ++ [r] } ∧
        (burstResult b = .ok → r = .ok .empty) ∧ ∀ c, burstResult b = .err c → r = .commError c)

/-! ### The sequencer: entry operations, `STOP`, `RDREG` -/

/-- `RUNAUTH` (42_sequencer.md R190): accepted only in PREINIT and IDLE; it writes its operands, clears its counters, opens a
closed port and goes to AUTH_SEND, responding only when it completes. -/
def Obligations.RunAuthResult : Prop :=
  ∀ (u : User) (m : Word16) (w : Word32) (s : State), s.hostRead = false →
    encode (.runAuth u m w) = [0x20, u.code.setWidth 8] ++ be16 m ++ be32 w ∧
    (s.stage = .preinit → s.upc = .idle →
      exec (.runAuth u m w) s = .next
        { s with
          user := u, maxRetry := m, retryWait := w, retry := 0, attempts := 0, stage := .login, upc := .authSend
          portOpen := true, rxPending := if s.portOpen then s.rxPending else [] }) ∧
    (s.stage ≠ .preinit ∨ s.upc ≠ .idle →
      exec (.runAuth u m w) s = .next { s with responses := s.responses ++ [.refused] })

/-- `RUNINIT` (42_sequencer.md R195): accepted only in LOGIN and IDLE. `READDATA` (R215): accepted only in XCHG and IDLE; it
writes its operands and clears the last header, the toggle, the timestamp and the counters. -/
def Obligations.RunInitAndReadData : Prop :=
  (∀ s : State, s.hostRead = false →
    encode .runInit = [0x21] ∧
    (s.stage = .login → s.upc = .idle →
      exec .runInit s = .next
        { s with stage := .init, probeHdr := ⟨0x4D, some 0x41⟩, attempts := 0, upc := .p1Send }) ∧
    (s.stage ≠ .login ∨ s.upc ≠ .idle → exec .runInit s = .next { s with responses := s.responses ++ [.refused] })) ∧
  (∀ (ufc : Bool) (sinks : BitVec 3) (p : Word32) (s : State), s.hostRead = false →
    encode (.readData ufc sinks p) = [0x22, 0#4 ++ sinks ++ BitVec.ofBool ufc] ++ be32 p ∧
    (s.stage = .xchg → s.upc = .idle →
      exec (.readData ufc sinks p) s = .next
        { s with
          pollInt := p, sinkMask := sinks, ufc := ufc, lastHdr := none, toggle := false, ts := none, cycle := 0
          attempts := 0, upc := .xSend }) ∧
    (s.stage ≠ .xchg ∨ s.upc ≠ .idle →
      exec (.readData ufc sinks p) s = .next { s with responses := s.responses ++ [.refused] }))

/-- `STOP` (42_sequencer.md R230): taken at once outside a read, where it puts the sequencer in PREINIT and IDLE with the
port closed, a running operation responding `OK`; held while a read is in flight (60_exceptions.md R270,
70_reset_and_hazards.md R319). That a host's own `READ` that waits, beside IDLE or HALT, is such a read [log 7], which part of
P2_CHECK is one [log 9], in which order the two responses come, and that a second `STOP` responds at once while one is held [log 8],
are the model's choice. -/
def Obligations.StopResult : Prop :=
  ∀ s : State,
    encode .stop = [0x23] ∧
    (s.readInFlight = false → isRunning s.upc = false →
      exec .stop s = .next
        { s with
          stage := .preinit, upc := .idle, portOpen := false, rxPending := [], stopPending := false
          responses := s.responses ++ [.ok .empty] }) ∧
    (s.readInFlight = false → isRunning s.upc = true →
      exec .stop s = .next
        { s with
          stage := .preinit, upc := .idle, portOpen := false, rxPending := [], stopPending := false
          responses := s.responses ++ [.ok .empty, .ok .empty] }) ∧
    (s.readInFlight = true → s.stopPending = false → exec .stop s = .next { s with stopPending := true }) ∧
    (s.readInFlight = true → s.stopPending = true →
      exec .stop s = .next { s with responses := s.responses ++ [.ok .empty] })

/-- A held stop is taken when the read has ended, before anything else happens: the step that ends the read leaves the
sequencer in PREINIT and IDLE with the port closed and no stop held (42_sequencer.md R230, 70_reset_and_hazards.md R319). That
nothing from outside is silence [log 4], that a burst which is there ends the read before any event but a reset is taken in
[log 6], that the stop comes before AUTH_SLEEP [log 29], and that a host's own `READ` [log 7] and P2_CHECK with a burst waiting
[log 9] are reads that hold a stop, are the model's reading. -/
def Obligations.HeldStopTaken : Prop :=
  ∀ s t : State, s.lineWf = true → s.stopPending = true → s.readInFlight = true →
    s.readReady = true ∨ s.inputs = [] ∨ (∃ rest, s.inputs = .elapse :: rest) → step s = .next t →
    t.stage = .preinit ∧ t.upc = .idle ∧ t.portOpen = false ∧ t.stopPending = false ∧ t.hostRead = false

/-- `RDREG` (42_sequencer.md R231, 10_state.md R42): the value of each register by number, zero-extended, in every position,
changing nothing; an unassigned number responds `ILLEGAL`. -/
def Obligations.RdRegResult : Prop :=
  ∀ s : State,
    (∀ (k : Byte) (v : Nat),
      (k, v) ∈ ([(0, s.stage.code.toNat), (1, s.upc.code.toNat), (2, s.portOpen.toNat), (3, s.rdBudget.toNat),
        (4, s.rdGranule.toNat), (5, s.user.code.toNat), (6, s.maxRetry.toNat), (7, s.retryWait.toNat), (8, s.retry.toNat),
        (9, s.attempts.toNat), (10, s.burst.toNat), (11, s.p4Try.toNat),
        (12, unbe s.probeHdr.bytes + 65536 * s.probeHdr.bytes.length),
        (13, (s.lastHdr.map fun h => unbe h.bytes + 65536 * h.bytes.length).getD (2 ^ 64 - 1)),
        (14, s.toggle.toNat), (15, (s.ts.map BitVec.toNat).getD (2 ^ 64 - 1)), (16, s.pollInt.toNat),
        (17, s.sinkMask.toNat), (18, s.ufc.toNat), (19, s.err.kind.code.toNat), (20, s.err.stage.code.toNat),
        (21, s.err.attempts.toNat), (22, ((s.err.code.map CommCode.code).getD 0).toNat), (23, s.stopPending.toNat),
        (24, s.cycle.toNat), (25, s.txf.valid.toNat), (26, s.rxf.valid.toNat)] : List (Byte × Nat)) →
      exec (.rdReg k) s = .next { s with responses := s.responses ++ [.ok (.register (BitVec.ofNat 64 v))] } ∧
        v < 2 ^ 64) ∧
    (∀ k : Byte, 27 ≤ k.toNat → exec (.rdReg k) s = .next { s with responses := s.responses ++ [.illegal] })

/-- While the sequencer runs, every host operation but `STOP` and `RDREG` is refused and changes nothing (60_exceptions.md
R280). That the same holds while a host's own `READ` is in flight is the model's choice [log 7]. -/
def Obligations.BusyRefuses : Prop :=
  ∀ (i : Instr) (s : State), i.kind = .hostOperation → i ≠ .stop → (∀ k, i ≠ .rdReg k) →
    isRunning s.upc = true ∨ s.hostRead = true →
    exec i s = .next { s with responses := s.responses ++ [.refused] }

/-! ### The sequencer: request frames

Each is sent at its own position with the port open; the bytes put on the line are written out from 43_wire_frames.md. -/

/-- AUTH_SEND sends the identifier frame of `SEQ.USER`, counts it, and goes to AUTH_READ (42_sequencer.md R191,
43_wire_frames.md R240 to R243). -/
def Obligations.AuthRequestsSent : Prop :=
  ∀ s : State, s.upc = .authSend → s.portOpen = true →
    (s.user = .plumber → exec .raPlumber s = .next
      { s with
        txf := ⟨some [0x52, 0x61], some 3, some [0x00, 0x00, 0x7B], some 0x0131, false, true⟩
        tx := s.tx ++ [0x52, 0x61, 0x03, 0x00, 0x00, 0x7B, 0x01, 0x31, 0x0D], attempts := satInc s.attempts
        upc := .authRead }) ∧
    (s.user = .normal → exec .raNormal s = .next
      { s with
        txf := ⟨some [0x52, 0x61], some 3, some [0x00, 0x00, 0x01], some 0x00B7, false, true⟩
        tx := s.tx ++ [0x52, 0x61, 0x03, 0x00, 0x00, 0x01, 0x00, 0xB7, 0x0D], attempts := satInc s.attempts
        upc := .authRead }) ∧
    (s.user = .normalAlt → exec .raNormalAlt s = .next
      { s with
        txf := ⟨some [0x52, 0x61], some 3, some [0x00, 0x00, 0xF3], some 0x01A9, false, true⟩
        tx := s.tx ++ [0x52, 0x61, 0x03, 0x00, 0x00, 0xF3, 0x01, 0xA9, 0x0D], attempts := satInc s.attempts
        upc := .authRead }) ∧
    (s.user = .service → exec .raService s = .next
      { s with
        txf := ⟨some [0x52, 0x61], some 3, some [0x00, 0xFF, 0xF9], some 0x02AE, false, true⟩
        tx := s.tx ++ [0x52, 0x61, 0x03, 0x00, 0xFF, 0xF9, 0x02, 0xAE, 0x0D], attempts := satInc s.attempts
        upc := .authRead })

/-- P1_SEND sends `SEQ.PROBE_HDR` with data 01, also when the header has one byte, which is logged as an invalid frame
(42_sequencer.md R196, 43_wire_frames.md R244, R250). -/
def Obligations.ProbesSent : Prop :=
  ∀ s : State, s.upc = .p1Send → s.portOpen = true →
    (s.probeHdr = ⟨0x4D, some 0x41⟩ → exec .maProbe s = .next
      { s with
        txf := ⟨some [0x4D, 0x41], some 1, some [0x01], some 0x0090, false, true⟩
        tx := s.tx ++ [0x4D, 0x41, 0x01, 0x01, 0x00, 0x90, 0x0D], attempts := satInc s.attempts, upc := .p1Read }) ∧
    (∀ p q : Byte, s.probeHdr = ⟨p, some q⟩ → ¬(p = 0x4D ∧ q = 0x41) → exec (.echoProbe p (some q)) s = .next
      { s with
        txf := ⟨some [p, q], some 1, some [0x01], some (BitVec.ofNat 16 (2 + p.toNat + q.toNat)), false, true⟩
        tx := s.tx ++ [p, q, 0x01, 0x01] ++ be16 (BitVec.ofNat 16 (2 + p.toNat + q.toNat)) ++ [0x0D]
        attempts := satInc s.attempts, upc := .p1Read }) ∧
    (∀ p : Byte, s.probeHdr = ⟨p, none⟩ → exec (.echoProbe p none) s = .next
      { s with
        txf := ⟨some [p], some 1, some [0x01], some (BitVec.ofNat 16 (2 + p.toNat)), false, false⟩
        tx := s.tx ++ [p, 0x01, 0x01] ++ be16 (BitVec.ofNat 16 (2 + p.toNat)) ++ [0x0D]
        attempts := satInc s.attempts, upc := .p1Read, log := s.log ++ [.wRawInvalid] })

/-- P2_SEND and P4_SEND send the M2 probe and count it in `SEQ.BURST` or `SEQ.P4TRY` (42_sequencer.md R199, R205,
43_wire_frames.md R245); P3_SEND sends the acknowledge request (R202, R246). -/
def Obligations.PhaseRequestsSent : Prop :=
  ∀ s : State, s.portOpen = true →
    (s.upc = .p2Send → exec .m2Probe s = .next
      { s with
        txf := ⟨some [0x4D, 0x32], some 1, some [0x01], some 0x0081, false, true⟩
        tx := s.tx ++ [0x4D, 0x32, 0x01, 0x01, 0x00, 0x81, 0x0D], attempts := satInc s.attempts
        burst := satInc s.burst, upc := .p2Check }) ∧
    (s.upc = .p4Send → exec .m2Probe s = .next
      { s with
        txf := ⟨some [0x4D, 0x32], some 1, some [0x01], some 0x0081, false, true⟩
        tx := s.tx ++ [0x4D, 0x32, 0x01, 0x01, 0x00, 0x81, 0x0D], attempts := satInc s.attempts
        p4Try := satInc s.p4Try, upc := .p4Read }) ∧
    (s.upc = .p3Send → exec .rbAck s = .next
      { s with
        txf := ⟨some [0x52, 0x62], some 3, some [0x00, 0x00, 0x01], some 0x00B8, false, true⟩
        tx := s.tx ++ [0x52, 0x62, 0x03, 0x00, 0x00, 0x01, 0x00, 0xB8, 0x0D], attempts := satInc s.attempts
        upc := .p3Read })

/-- X_SEND: M3 after an M3 reply, else M1 and M2 by the toggle, which an M3 request leaves (42_sequencer.md R216,
43_wire_frames.md R247 to R249). -/
def Obligations.ExchangeRequestsSent : Prop :=
  ∀ s : State, s.portOpen = true → s.upc = .xSend →
    (s.lastHdr = some ⟨0x4D, some 0x33⟩ → exec .m3Req s = .next
      { s with
        txf := ⟨some [0x4D, 0x33], some 1, some [0x01], some 0x0082, false, true⟩
        tx := s.tx ++ [0x4D, 0x33, 0x01, 0x01, 0x00, 0x82, 0x0D], attempts := satInc s.attempts, upc := .xRead }) ∧
    (s.lastHdr ≠ some ⟨0x4D, some 0x33⟩ → s.toggle = false → exec .m1Req s = .next
      { s with
        txf := ⟨some [0x4D, 0x31], some 1, some [0x01], some 0x0080, false, true⟩
        tx := s.tx ++ [0x4D, 0x31, 0x01, 0x01, 0x00, 0x80, 0x0D], attempts := satInc s.attempts, upc := .xRead
        toggle := true }) ∧
    (s.lastHdr ≠ some ⟨0x4D, some 0x33⟩ → s.toggle = true → exec .m2Req s = .next
      { s with
        txf := ⟨some [0x4D, 0x32], some 1, some [0x01], some 0x0081, false, true⟩
        tx := s.tx ++ [0x4D, 0x32, 0x01, 0x01, 0x00, 0x81, 0x0D], attempts := satInc s.attempts, upc := .xRead
        toggle := false })

/-- Whatever request the sequencer is at, what it puts on the line when it runs is exactly that row's bytes
(43_wire_frames.md R240 to R250). -/
def Obligations.RequestSendsItsBytes : Prop :=
  ∀ (i : Instr) (s t : State), i.kind = .wireRequest → exec i s = .next t → t.tx = s.tx ++ encode i ∧ t.txf.verifies = true

/-- A wire row does not run off its position, and does not run with the port closed: 42_sequencer.md R233 lists no such
transition, and 41_transport.md R161 and R162 refuse a closed port. The two names are the model's choice [log 11, log 12]. -/
def Obligations.WireRowStops : Prop :=
  ∀ (i : Instr) (s : State), i.kind ≠ .hostOperation →
    (fetchWire s ≠ some i → exec i s = .fault .noTransition) ∧
    (fetchWire s = some i → s.portOpen = false → exec i s = .refused .portClosed)

/-! ### The sequencer: replies

`b` is the burst the read takes and `rest` the ones after it. -/

/-- AUTH_READ of a reply that reads `ok`, whatever its header and data, completes `RUNAUTH` (42_sequencer.md R192,
43_wire_frames.md R256). P1_READ of a reply with header 4D 30 to 4D 3F ends phase 1, whether or not the reply is a good frame
(R197, R198, R251). -/
def Obligations.AuthAndMDigitReplies : Prop :=
  (∀ (s : State) (b : Burst) (rest : List Burst) (q : Byte) (r : Bytes), s.upc = .authRead → s.portOpen = true →
    s.rxPending = b :: rest → b.rest = q :: r → burstResult b = .ok →
    exec (.rspAuth b.first q) s = .next
      { s.afterRead b rest with upc := .idle, responses := s.responses ++ [.ok .empty] }) ∧
  (∀ (s : State) (b : Burst) (rest : List Burst) (digit : BitVec 4) (r : Bytes), s.upc = .p1Read → s.portOpen = true →
    s.rxPending = b :: rest → b.first = 0x4D → b.rest = (0x3#4 ++ digit) :: r →
    exec (.rspMDigit digit) s = .next
      { s.afterRead b rest with
        probeHdr := ⟨0x4D, some (0x3#4 ++ digit)⟩, stage := .postInit, burst := 0, upc := .p2Send
        log := (s.afterRead b rest).log ++ (if burstResult b = .ok then [] else [.eInitSalvage]) })

/-- X_READ of an M1 reply that is a complete frame routes the record: with the local clock's sample, or with `SEQ.TS` in
furnace-clock mode; to the keyed-value and the tabular sink only when the checksum validates, to the flat-file sink tagged;
the hex string is the whole burst. Without a timestamp the record is dropped and logged (42_sequencer.md R217, R218, R220,
R221, 43_wire_frames.md R252). `Config.now` and `Config.decodeFields` are free values [log 1, log 2]. -/
def Obligations.TelemetryReply : Prop :=
  ∀ (s : State) (b : Burst) (rest : List Burst) (r : Bytes) (ok : Bool), s.upc = .xRead → s.portOpen = true →
    s.rxPending = b :: rest → b.first = 0x4D → b.rest = 0x31 :: r →
    burstResult b = (if ok then .ok else .err .checksumFailure) →
    (∀ t : Int, (s.ufc = false ∧ t = Config.now s.clockReads) ∨ (∃ w : Word64, s.ufc = true ∧ s.ts = some w ∧ t = w.toInt) →
      exec .rspM1 s = .next
        { s.afterRead b rest with
          lastHdr := some ⟨0x4D, some 0x31⟩, upc := .xSleep
          clockReads := if s.ufc then s.clockReads else s.clockReads + 1
          sinks := s.sinks ++
            ((if s.sinkMask.getLsbD 0 = true ∧ ok = true then [.kv t (hexOf b.bytes)] else []) ++
              (if s.sinkMask.getLsbD 1 = true then [.file t (if ok then .valid else .invalid) (hexOf b.bytes)] else []) ++
              (if s.sinkMask.getLsbD 2 = true ∧ ok = true then
                [.tab (t :: Config.decodeFields ((b.bytes.drop 3).take (b.bytes.length - 5)))] else [])) }) ∧
    (s.ufc = true → s.ts = none →
      exec .rspM1 s = .next
        { s.afterRead b rest with
          lastHdr := some ⟨0x4D, some 0x31⟩, upc := .xSleep
          log := (s.afterRead b rest).log ++ [.wNoTimestamp] })

/-- X_READ of an M2 reply that is a complete frame: in furnace-clock mode its first seven data bytes are the timestamp,
also when the checksum fails; fewer than seven, or a date `to_epoch` rejects, keep `SEQ.TS` and are logged (42_sequencer.md
R217 to R219, 43_wire_frames.md R253). `Config.toEpoch` is a free value [log 1]. That an M2 reply is the row `RSP_M2` also without
furnace-clock mode, where it has no other effect than its header's, is the model's reading [log 14]. -/
def Obligations.ClockReply : Prop :=
  ∀ (s : State) (b : Burst) (rest : List Burst) (d : Bytes) (n p q : Byte), s.upc = .xRead → s.portOpen = true →
    s.rxPending = b :: rest → b.bytes = [0x4D, 0x32, n] ++ d ++ [p, q] → d.length = n.toNat →
    (s.ufc = false →
      exec .rspM2 s = .next { s.afterRead b rest with lastHdr := some ⟨0x4D, some 0x32⟩, upc := .xSleep }) ∧
    (∀ (y wd mo dd hh mi sec : Byte) (more : Bytes), s.ufc = true → d = y :: wd :: mo :: dd :: hh :: mi :: sec :: more →
      exec .rspM2 s = .next
        { s.afterRead b rest with
          lastHdr := some ⟨0x4D, some 0x32⟩, upc := .xSleep
          ts :=
            match Config.toEpoch (2000 + y.toNat) mo.toNat dd.toNat hh.toNat mi.toNat sec.toNat with
            | some t => some t
            | none => s.ts
          log := (s.afterRead b rest).log ++
            (if (Config.toEpoch (2000 + y.toNat) mo.toNat dd.toNat hh.toNat mi.toNat sec.toNat).isNone then [.wClockDecode]
              else []) }) ∧
    (s.ufc = true → d.length < 7 →
      exec .rspM2 s = .next
        { s.afterRead b rest with
          lastHdr := some ⟨0x4D, some 0x32⟩, upc := .xSleep, log := (s.afterRead b rest).log ++ [.wClockDecode] })

/-- X_READ of an M3 reply, or of a reply of no class, that is a complete frame: its header is noted and nothing else of it is
used (42_sequencer.md R217, R218, 43_wire_frames.md R254, R255). -/
def Obligations.OtherExchangeReply : Prop :=
  ∀ (s : State) (b : Burst) (rest : List Burst) (q : Byte) (r : Bytes), s.upc = .xRead → s.portOpen = true →
    s.rxPending = b :: rest → b.rest = q :: r → burstResult b = .ok ∨ burstResult b = .err .checksumFailure →
    (b.first = 0x4D → q = 0x33 →
      exec .rspM3 s = .next { s.afterRead b rest with lastHdr := some ⟨0x4D, some 0x33⟩, upc := .xSleep }) ∧
    (¬(b.first = 0x4D ∧ (q = 0x31 ∨ q = 0x32 ∨ q = 0x33)) →
      exec (.rspOther b.first q) s = .next { s.afterRead b rest with lastHdr := some ⟨b.first, some q⟩, upc := .xSleep })

/-- A reply of no class in authentication and initialisation (43_wire_frames.md R255): a failed AUTH_READ is logged and
waits; P1_READ copies the header and probes again; P2_CHECK, P3_READ and P4_READ log an error and go on, P4_READ completing
`RUNINIT` (42_sequencer.md R192, R197, R198, R200, R203, R206). A burst of one byte, which is in no class and no row, does the same by a
micro-step of its own, and counts as a reply in P4_READ. Which rows are of no class [log 14], and that a burst which is there ends
the read before any event but a reset is taken in [log 6], are the model's reading. -/
def Obligations.OtherReply : Prop :=
  (∀ (s : State) (b : Burst) (rest : List Burst) (q : Byte) (r : Bytes), s.portOpen = true → s.rxPending = b :: rest →
    b.rest = q :: r →
    (s.upc = .authRead → burstResult b ≠ .ok → exec (.rspOther b.first q) s = .next
      { s.afterRead b rest with upc := .authSleep, log := (s.afterRead b rest).log ++ [.eAuthRetry] }) ∧
    (s.upc = .p1Read → ¬(b.first = 0x4D ∧ q >>> 4 = 0x03) → exec (.rspOther b.first q) s = .next
      { s.afterRead b rest with
        probeHdr := ⟨b.first, some q⟩, upc := .p1Send
        log := (s.afterRead b rest).log ++ (if burstResult b = .ok then [] else [.eInitSalvage]) }) ∧
    (s.upc = .p2Check → exec (.rspOther b.first q) s = .next
      { s.afterRead b rest with
        upc := .p2Wait
        log := (s.afterRead b rest).log ++ (if burstResult b = .ok then [] else [.eInitTolerated]) }) ∧
    (s.upc = .p3Read → exec (.rspOther b.first q) s = .next
      { s.afterRead b rest with
        upc := .p4Wait
        log := (s.afterRead b rest).log ++ (if burstResult b = .ok then [] else [.eInitTolerated]) }) ∧
    (s.upc = .p4Read → exec (.rspOther b.first q) s = .next
      { s.afterRead b rest with
        stage := .xchg, upc := .idle, responses := s.responses ++ [.ok .empty]
        log := (s.afterRead b rest).log ++ (if burstResult b = .ok then [] else [.eInitTolerated]) })) ∧
  (∀ (s : State) (x : Byte) (rest : List Burst), s.portOpen = true → s.hostRead = false → s.stopPending = false →
    s.rxPending = ⟨x, []⟩ :: rest → (∀ r, s.inputs ≠ .reset :: r) →
    (s.upc = .authRead → step s = .next
      { s with
        rxPending := rest, rxf := ⟨some [x], none, none, none, false, false⟩, rxbuf := [(0, x)], rxbufN := 1
        upc := .authSleep, log := s.log ++ [.eAuthRetry] }) ∧
    (s.upc = .p1Read → step s = .next
      { s with
        rxPending := rest, rxf := ⟨some [x], none, none, none, false, false⟩, rxbuf := [(0, x)], rxbufN := 1
        probeHdr := ⟨x, none⟩, upc := .p1Send, log := s.log ++ [.eInitSalvage] }) ∧
    (s.upc = .p2Check → step s = .next
      { s with
        rxPending := rest, rxf := ⟨some [x], none, none, none, false, false⟩, rxbuf := [(0, x)], rxbufN := 1
        upc := .p2Wait, log := s.log ++ [.eInitTolerated] }) ∧
    (s.upc = .p3Read → step s = .next
      { s with
        rxPending := rest, rxf := ⟨some [x], none, none, none, false, false⟩, rxbuf := [(0, x)], rxbufN := 1
        upc := .p4Wait, log := s.log ++ [.eInitTolerated] }) ∧
    (s.upc = .p4Read → step s = .next
      { s with
        rxPending := rest, rxf := ⟨some [x], none, none, none, false, false⟩, rxbuf := [(0, x)], rxbufN := 1
        stage := .xchg, upc := .idle, log := s.log ++ [.eInitTolerated], responses := s.responses ++ [.ok .empty] }))

/-! ### The sequencer: micro-steps that no frame names, and terminal errors -/

/-- The waits, when time passes (42_sequencer.md R193, R201, R204, R222). AUTH_SLEEP reopens the port before its bound test,
and the test that fails raises AUTH_EXHAUSTED (60_exceptions.md R275). In IDLE
and in HALT the sequencer takes no step (10_state.md R31, 60_exceptions.md R274). -/
def Obligations.WaitsEnd : Prop :=
  ∀ (s : State) (rest : List Input), s.inputs = .elapse :: rest → s.hostRead = false → s.stopPending = false →
    (s.upc = .authSleep → (satInc s.retry).toNat < s.maxRetry.toNat →
      step s = .next
        { s with inputs := rest, portOpen := true, rxPending := [], retry := satInc s.retry, upc := .authSend }) ∧
    (s.upc = .authSleep → s.maxRetry.toNat ≤ (satInc s.retry).toNat →
      step s = .next
        { s with
          inputs := rest, portOpen := true, rxPending := [], retry := satInc s.retry, upc := .halt
          err := ⟨.authExhausted, s.stage, (satInc s.retry).setWidth 32, none⟩
          log := s.log ++ [.eTerminal]
          responses := s.responses ++ [.protocolFatal .authExhausted s.stage ((satInc s.retry).setWidth 32)] }) ∧
    (s.upc = .p2Wait → s.burst.toNat ≠ 33 → step s = .next { s with inputs := rest, upc := .p2Send }) ∧
    (s.upc = .p2Wait → s.burst.toNat = 33 → step s = .next { s with inputs := rest, upc := .p3Send }) ∧
    (s.upc = .p4Wait → step s = .next { s with inputs := rest, p4Try := 0, upc := .p4Send }) ∧
    (s.upc = .xSleep → step s = .next { s with inputs := rest, cycle := satInc s.cycle, upc := .xSend }) ∧
    (s.upc = .idle ∨ s.upc = .halt → step s = .next { s with inputs := rest })

/-- A read that ends in silence, by position (42_sequencer.md R192, R197, R200, R203, R206, R217; 60_exceptions.md R273 to
R276): retried, terminal, tolerated, counted or terminal. -/
def Obligations.SilenceByPosition : Prop :=
  ∀ (s : State) (rest : List Input), s.inputs = .elapse :: rest → s.hostRead = false → s.stopPending = false →
    s.portOpen = true → s.rxPending = [] →
    (s.upc = .authRead → step s = .next
      { s.afterSilence with inputs := rest, upc := .authSleep, log := s.log ++ [.eAuthRetry] }) ∧
    (s.upc = .p1Read → step s = .next
      { s.afterSilence with
        inputs := rest, upc := .halt, err := ⟨.initTimeout, s.stage, s.attempts, some .globalTimeout⟩
        log := s.log ++ [.eTerminal]
        responses := s.responses ++ [.protocolFatal .initTimeout s.stage s.attempts] }) ∧
    (s.upc = .p2Check → step s = .next { s with inputs := rest, upc := .p2Wait }) ∧
    (s.upc = .p3Read → step s = .next
      { s.afterSilence with inputs := rest, upc := .p4Wait, log := s.log ++ [.eInitTolerated] }) ∧
    (s.upc = .p4Read → s.p4Try.toNat < 20 → step s = .next { s.afterSilence with inputs := rest, upc := .p4Send }) ∧
    (s.upc = .p4Read → 20 ≤ s.p4Try.toNat → step s = .next
      { s.afterSilence with
        inputs := rest, stage := .xchg, upc := .idle, log := s.log ++ [.wInitAbort]
        responses := s.responses ++ [.ok .empty] }) ∧
    (s.upc = .xRead → step s = .next
      { s.afterSilence with
        inputs := rest, upc := .halt, err := ⟨.commError, s.stage, s.attempts, some .globalTimeout⟩
        log := s.log ++ [.eTerminal], responses := s.responses ++ [.commError .globalTimeout] })

/-- X_READ of a truncated or ill-sized burst, of any class and of any length, is terminal: the record names kind, stage,
attempts and code, the partial frame stays in `RXF`, and `READDATA` responds with the code (42_sequencer.md R217,
60_exceptions.md R274, R276). That the burst ends the read before any event but a reset is taken in is the model's reading
[log 6]. -/
def Obligations.ExchangeErrorTerminal : Prop :=
  ∀ (s : State) (b : Burst) (rest : List Burst) (c : CommCode), s.upc = .xRead → s.portOpen = true → s.hostRead = false →
    s.stopPending = false → s.rxPending = b :: rest → (∀ r, s.inputs ≠ .reset :: r) → burstResult b = .err c →
    c ≠ .checksumFailure →
    step s = .next
      { s.afterRead b rest with
        upc := .halt, err := ⟨.commError, s.stage, s.attempts, some c⟩
        log := (s.afterRead b rest).log ++ [.eTerminal], responses := s.responses ++ [.commError c] }

/-- A one-byte burst, which is in no reply class, in phase 1: its byte is the next probe's header (42_sequencer.md R197,
R198, 70_reset_and_hazards.md R317). That the burst ends the read before any event but a reset is taken in is the model's
reading [log 6]. -/
def Obligations.OneByteSalvaged : Prop :=
  ∀ (s : State) (x : Byte) (rest : List Burst), s.upc = .p1Read → s.portOpen = true → s.hostRead = false →
    s.stopPending = false → s.rxPending = ⟨x, []⟩ :: rest → (∀ r, s.inputs ≠ .reset :: r) →
    step s = .next
      { s with
        rxPending := rest, rxf := ⟨some [x], none, none, none, false, false⟩, rxbuf := [(0, x)], rxbufN := 1
        probeHdr := ⟨x, none⟩, upc := .p1Send, log := s.log ++ [.eInitSalvage] }

/-! ### Invariants and whole-machine rules -/

/-- After reset every property that the statements below call an invariant holds. -/
def Obligations.ResetIsLegal : Prop :=
  legalPosition State.reset.position = true ∧ State.reset.framesWf = true ∧ State.reset.bufferWf ∧
    State.reset.err.wf = true ∧ State.reset.lineWf = true ∧ State.reset.stopWf = true ∧ State.reset.countersWf = true ∧
    State.reset.constantsWf = true

/-- Every step from a legal position (10_state.md R32) keeps it, takes one of the transitions of 42_sequencer.md R233, or
leads where `STOP` and reset lead, to PREINIT and IDLE with the port closed; so the position stays legal, and the stage goes
back only there (10_state.md R30). -/
def Obligations.OnlyListedTransitions : Prop :=
  ∀ s t : State, legalPosition s.position = true → step s = .next t →
    legalPosition t.position = true ∧
    (t.position = s.position ∨ (s.position, t.position) ∈ transitions ∨ (t.position = stopped ∧ t.portOpen = false)) ∧
    (s.stage.code.toNat ≤ t.stage.code.toNat ∨ t.position = stopped)

/-- Every step keeps the header and the data of both frame registers within 255 bytes (10_state.md R21, R23); the burst buffer
canonical, filled exactly below its fill count, and within its capacity (R43, 20_memory.md R62); and the two read-only
transport registers at their constants (R34). -/
def Obligations.StorageStaysWellFormed : Prop :=
  ∀ s t : State, step s = .next t →
    (s.framesWf = true → t.framesWf = true) ∧ (s.bufferWf → t.bufferWf) ∧ (s.constantsWf = true → t.constantsWf = true)

/-- The error record is written by a terminal error and by nothing else but reset: a step that changes it logs `E_TERMINAL`
and records the stage it was raised in; and from a legal position every step keeps the record one that reset or a terminal
error writes (10_state.md R40, 60_exceptions.md R274 to R276). -/
def Obligations.ErrorRecordRule : Prop :=
  ∀ s t : State, step s = .next t →
    (t.err ≠ s.err → (∃ rest, s.inputs = .reset :: rest) ∨
      (t.err.stage = s.stage ∧ t.err.kind ≠ .none ∧ ∃ more, t.log = s.log ++ more ++ [.eTerminal])) ∧
    (legalPosition s.position = true → s.err.wf = true → t.err.wf = true)

/-- Every step keeps the line's invariant, that a closed port has nothing to read and no read in flight (41_transport.md R160,
R166, 60_exceptions.md R280), and the stop's, that a stop is held only while a read is in flight (10_state.md R41,
42_sequencer.md R230). That a host's own `READ` that waits is such a read is the model's choice [log 7]. -/
def Obligations.LineStaysLegal : Prop :=
  ∀ s t : State, step s = .next t → (s.lineWf = true → t.lineWf = true) ∧ (s.stopWf = true → t.stopWf = true)

/-- From a legal position every step keeps the phase counters in their ranges, and phase 2 is left only with 33 probes
counted (10_state.md R36, 42_sequencer.md R201, R206). -/
def Obligations.CountersStayInRange : Prop :=
  ∀ s t : State, legalPosition s.position = true → s.countersWf = true → step s = .next t → t.countersWf = true

/-- What is on an output channel stays there, in order: every step but a reset only appends (20_memory.md R64, R65, R68, R69,
R77). -/
def Obligations.OutputsOnlyGrow : Prop :=
  ∀ s t : State, (∀ rest, s.inputs ≠ .reset :: rest) → step s = .next t → OutputsKept s t

/-- Half-duplex, whole frames: a step that puts bytes on the line puts one frame image and the terminator there, the image of
the frame that `TXF` or `RXF` then holds (20_memory.md R65, 41_transport.md R161), and reads nothing (70_reset_and_hazards.md
R310). -/
def Obligations.HalfDuplexFrames : Prop :=
  ∀ s t : State, (∀ rest, s.inputs ≠ .reset :: rest) → step s = .next t → t.tx ≠ s.tx →
    (∃ (fs : FrameSel) (h : Bytes) (n : Byte) (d : Bytes) (c : Word16),
      (t.frame fs).hdr = some h ∧ (t.frame fs).size = some n ∧ (t.frame fs).data = some d ∧ (t.frame fs).csum = some c ∧
      t.tx = s.tx ++ (h ++ [n] ++ d ++ be16 c ++ [0x0D])) ∧
    t.rxPending = s.rxPending ∧ t.rxf = s.rxf ∧ t.rxbuf = s.rxbuf ∧ t.rxbufN = s.rxbufN

/-- Records reach the sinks only from X_READ, at most one for each sink in a step, and with `SEQ.UFC = 1` the clock is not
sampled (42_sequencer.md R220, R221). -/
def Obligations.SinksOnlyFromExchange : Prop :=
  ∀ s t : State, (∀ rest, s.inputs ≠ .reset :: rest) → step s = .next t →
    (t.sinks ≠ s.sinks → s.upc = .xRead) ∧ t.sinks.length ≤ s.sinks.length + 3 ∧
    (s.ufc = true → t.clockReads = s.clockReads)

/-- No step faults: the fault names a wire row asked for off its position, and the machine runs a row only at its position
(42_sequencer.md R233) [log 12]. The one thing that stops a run is a session that uses the line after the host closed the port
between two sequencer operations (41_transport.md R161, R162) [log 11]. -/
def Obligations.StepStops : Prop :=
  ∀ s : State, (∀ r : Fault, step s ≠ .fault r) ∧
    ∀ r : Refusal, s.lineWf = true → step s = .refused r →
      r = .portClosed ∧ s.portOpen = false ∧ (s.upc = .p1Send ∨ s.upc = .xSend)

/-! ### Counts -/

/-- Authentication against a silent line (42_sequencer.md R194): with `maxRetry = N`, and with 0 as with 1, exactly `N`
identifier frames are sent in `3 * N` steps, the error record and the response hold `N`, and the port is open at the end.
That nothing from outside is silence is the model's reading [log 4]. -/
def Obligations.SilentAuthCounts : Prop :=
  ∀ s : State, s.quiet → s.stage = .login → s.upc = .authSend → s.portOpen = true → s.retry = 0 → s.attempts = 0 →
    ∃ (n : Nat) (t : State), n = max 1 s.maxRetry.toNat ∧ stepsTo (3 * n) s t ∧ t.upc = .halt ∧
      t.err = ⟨.authExhausted, .login, BitVec.ofNat 32 n, none⟩ ∧ t.attempts = BitVec.ofNat 32 n ∧ t.portOpen = true ∧
      t.tx = s.tx ++ (List.replicate n (encode (authRequest s.user))).flatten ∧
      t.responses = s.responses ++ [.protocolFatal .authExhausted .login (BitVec.ofNat 32 n)]

/-- Phase 2 against a silent line sends exactly 33 probes and goes on to phase 3 (42_sequencer.md R201); phase 4 makes twenty
attempts, logs the abort, and goes to XCHG all the same, `RUNINIT` responding `OK` (R206, R207). That nothing from outside is
silence is the model's reading [log 4]. -/
def Obligations.SilentPhaseCounts : Prop :=
  (∀ s : State, s.quiet → s.upc = .p2Send → s.portOpen = true → s.burst = 0 →
    ∃ t : State, stepsTo 99 s t ∧ t.upc = .p3Send ∧ t.burst = 33 ∧ t.rxf = s.rxf ∧ t.responses = s.responses ∧
      t.tx = s.tx ++ (List.replicate 33 ([0x4D, 0x32, 0x01, 0x01, 0x00, 0x81, 0x0D] : Bytes)).flatten) ∧
  (∀ s : State, s.quiet → s.upc = .p4Wait → s.portOpen = true →
    ∃ t : State, stepsTo 41 s t ∧ t.stage = .xchg ∧ t.upc = .idle ∧ t.p4Try = 20 ∧ t.err = s.err ∧
      t.log = s.log ++ [.wInitAbort] ∧ t.responses = s.responses ++ [.ok .empty] ∧
      t.tx = s.tx ++ (List.replicate 20 ([0x4D, 0x32, 0x01, 0x01, 0x00, 0x81, 0x0D] : Bytes)).flatten)
end

