-- ==== Sys2Proof/Laws/Decode.lean ====
section
/-!
SUPPORT. For each operand parser and each command format, once, what it accepts: exactly the bytes the encoder writes
(30_encoding.md R98), and the reverse.
-/

namespace Sys2Proof

/-! ### Byte order -/

theorem append_toNat {w : Nat} (a : BitVec w) (b : Byte) : (a ++ b).toNat = 256 * a.toNat + b.toNat := by
  have hb := b.isLt
  rw [BitVec.toNat_append, Nat.shiftLeft_eq, Nat.mul_comm, ← Nat.two_pow_add_eq_or_of_lt (by omega)]

/-- Two bytes joined, most significant first (30_encoding.md R92). -/
theorem join16_toNat (p q : Byte) : (join16 p q).toNat = 256 * p.toNat + q.toNat := append_toNat p q

/-- Four bytes joined, most significant first (30_encoding.md R98). -/
theorem join32_toNat (a b c d : Byte) :
    (join32 a b c d).toNat = 256 * (256 * (256 * a.toNat + b.toNat) + c.toNat) + d.toNat := by
  have h1 : (a ++ b ++ c ++ d).toNat = 256 * (a ++ b ++ c).toNat + d.toNat := append_toNat _ d
  have h2 : (a ++ b ++ c).toNat = 256 * (a ++ b).toNat + c.toNat := append_toNat _ c
  have h3 : (a ++ b).toNat = 256 * a.toNat + b.toNat := append_toNat _ b
  rw [h2, h3] at h1
  exact h1

theorem extract_toNat {w : Nat} (v : BitVec w) (k : Nat) : (v.extractLsb' k 8).toNat = v.toNat / 2 ^ k % 256 := by
  rw [BitVec.extractLsb'_toNat, Nat.shiftRight_eq_div_pow]

theorem join16_be16 (v : Word16) : join16 (v.extractLsb' 8 8) (v.extractLsb' 0 8) = v := by
  apply BitVec.eq_of_toNat_eq
  have := v.isLt
  rw [join16_toNat, extract_toNat, extract_toNat]
  omega

theorem be16_join16 (p q : Byte) : be16 (join16 p q) = [p, q] := by
  have hp := p.isLt
  have hq := q.isLt
  have e1 : (join16 p q).extractLsb' 8 8 = p := by
    apply BitVec.eq_of_toNat_eq
    rw [extract_toNat, join16_toNat]
    omega
  have e2 : (join16 p q).extractLsb' 0 8 = q := by
    apply BitVec.eq_of_toNat_eq
    rw [extract_toNat, join16_toNat]
    omega
  rw [be16, e1, e2]

theorem join32_be32 (v : Word32) :
    join32 (v.extractLsb' 24 8) (v.extractLsb' 16 8) (v.extractLsb' 8 8) (v.extractLsb' 0 8) = v := by
  apply BitVec.eq_of_toNat_eq
  have := v.isLt
  rw [join32_toNat, extract_toNat, extract_toNat, extract_toNat, extract_toNat]
  omega

theorem be32_join32 (a b c d : Byte) : be32 (join32 a b c d) = [a, b, c, d] := by
  have ha := a.isLt
  have hb := b.isLt
  have hc := c.isLt
  have hd := d.isLt
  have e1 : (join32 a b c d).extractLsb' 24 8 = a := by
    apply BitVec.eq_of_toNat_eq
    rw [extract_toNat, join32_toNat]
    omega
  have e2 : (join32 a b c d).extractLsb' 16 8 = b := by
    apply BitVec.eq_of_toNat_eq
    rw [extract_toNat, join32_toNat]
    omega
  have e3 : (join32 a b c d).extractLsb' 8 8 = c := by
    apply BitVec.eq_of_toNat_eq
    rw [extract_toNat, join32_toNat]
    omega
  have e4 : (join32 a b c d).extractLsb' 0 8 = d := by
    apply BitVec.eq_of_toNat_eq
    rw [extract_toNat, join32_toNat]
    omega
  rw [be32, e1, e2, e3, e4]

/-! ### Operand fields -/

theorem parseFs_ok {b : Byte} {fs : FrameSel} (h : parseFs b = .ok fs) : b = fs.code := by
  unfold parseFs at h
  split at h
  · cases h
    assumption
  · split at h <;> cases h
    assumption

theorem Fmt.ofCode_some {b : Byte} {f : Fmt} (h : Fmt.ofCode b = some f) : b = f.code := by
  unfold Fmt.ofCode at h
  repeat' split at h
  all_goals first
    | (cases h; assumption)
    | cases h

@[simp] theorem Fmt.ofCode_code (f : Fmt) : Fmt.ofCode f.code = some f := by cases f <;> rfl

theorem parseFmt_ok {b : Byte} {f : Fmt} (h : parseFmt b = .ok f) : b = f.code := by
  unfold parseFmt at h
  split at h <;> cases h
  exact Fmt.ofCode_some (by assumption)

theorem parseUser_ok {b : Byte} {u : User} (h : parseUser b = .ok u) : b = u.code.setWidth 8 := by
  unfold parseUser at h
  repeat' split at h
  all_goals first
    | (cases h; assumption)
    | cases h

theorem parseVerify_ok {b : Byte} {v : Bool} (h : parseVerify b = .ok v) : b = verifyFlag v := by
  unfold parseVerify at h
  repeat' split at h
  all_goals first
    | (cases h; assumption)
    | cases h

theorem parseOperand_ok {bs tail : Bytes} {r : Operand} (h : parseOperand bs = .ok (r, tail)) :
    bs = encodeOperand r ++ tail ∧ r.wf = true := by
  unfold parseOperand at h
  split at h
  · rename_i t hi lo rest
    split at h
    · cases h
    · rename_i tag ht
      split at h
      · cases h
      · rename_i hl
        cases h
        have hlen : (rest.take (join16 hi lo).toNat).length = (join16 hi lo).toNat := by
          rw [List.length_take]
          omega
        have hlt := (join16 hi lo).isLt
        refine ⟨?_, ?_⟩
        · simp only [encodeOperand, hlen, BitVec.ofNat_toNat, BitVec.setWidth_eq, be16_join16,
            ← Fmt.ofCode_some ht, List.cons_append, List.nil_append, List.take_append_drop]
        · simp only [Operand.wf, hlen, decide_eq_true_eq]
          omega
  · cases h

theorem parseOptional_ok {p : Bool} {bs tail : Bytes} {o : Option Operand} (h : parseOptional p bs = .ok (o, tail)) :
    bs = encodeOptional o ++ tail ∧ Operand.optWf o = true ∧ o.isSome = p := by
  unfold parseOptional at h
  split at h
  · rename_i hp
    split at h
    · rename_i r rest hr
      cases h
      exact ⟨(parseOperand_ok hr).1, (parseOperand_ok hr).2, hp.symm⟩
    · cases h
  · rename_i hp
    cases h
    exact ⟨rfl, rfl, by simpa using hp⟩

/-! ### Formats -/

theorem finish_ok {i j : Instr} {bs : Bytes} (h : finish i bs = .ok j) : bs = [] ∧ j = i := by
  cases bs <;> simp only [finish, reduceCtorEq, Except.ok.injEq] at h
  exact ⟨rfl, h.symm⟩

theorem bind_ok {α β : Type} {x : Except DecodeError α} {f : α → Except DecodeError β} {b : β}
    (h : (x >>= f) = .ok b) : ∃ a, x = .ok a ∧ f a = .ok b := by
  cases x with
  | ok a => exact ⟨a, rfl, h⟩
  | error e => cases h

theorem parseC1_ok {mk : FrameSel → Instr} {bs : Bytes} {i : Instr} (h : parseC1 mk bs = .ok i) :
    ∃ fs, bs = [fs.code] ∧ i = mk fs := by
  unfold parseC1 at h
  split at h
  · obtain ⟨fs, h1, h2⟩ := bind_ok h
    obtain ⟨rfl, rfl⟩ := finish_ok h2
    exact ⟨fs, by rw [parseFs_ok h1], rfl⟩
  · cases h

theorem parseC2_ok {mk : FrameSel → Fmt → Instr} {bs : Bytes} {i : Instr} (h : parseC2 mk bs = .ok i) :
    ∃ fs fmt, bs = [fs.code, fmt.code] ∧ i = mk fs fmt := by
  unfold parseC2 at h
  split at h
  · obtain ⟨fs, h1, h2⟩ := bind_ok h
    obtain ⟨fmt, h3, h4⟩ := bind_ok h2
    obtain ⟨rfl, rfl⟩ := finish_ok h4
    exact ⟨fs, fmt, by rw [parseFs_ok h1, parseFmt_ok h3], rfl⟩
  · cases h

theorem parseC3_ok {mk : FrameSel → Bool → Operand → Instr} {bs : Bytes} {i : Instr} (h : parseC3 mk bs = .ok i) :
    ∃ fs v r, bs = fs.code :: verifyFlag v :: encodeOperand r ∧ r.wf = true ∧ i = mk fs v r := by
  unfold parseC3 at h
  split at h
  · obtain ⟨fs, h1, h2⟩ := bind_ok h
    obtain ⟨v, h3, h4⟩ := bind_ok h2
    obtain ⟨⟨r, tail⟩, h5, h6⟩ := bind_ok h4
    obtain ⟨rfl, rfl⟩ := finish_ok h6
    obtain ⟨rfl, hw⟩ := parseOperand_ok h5
    exact ⟨fs, v, r, by rw [parseFs_ok h1, parseVerify_ok h3, List.append_nil], hw, rfl⟩
  · cases h

theorem pmask_of_bits {b : Byte} {h d : Option Operand} (hb : ¬4 ≤ b.toNat) (h1 : h.isSome = b.getLsbD 0)
    (h2 : d.isSome = b.getLsbD 1) : b = pmask h d := by
  have key : ∀ b : Byte, ¬4 ≤ b.toNat → b = BitVec.ofNat 8 ((b.getLsbD 0).toNat + 2 * (b.getLsbD 1).toNat) := by decide
  rw [pmask, h1, h2]
  exact key b hb

theorem parseC4_ok {mk : FrameSel → Option Operand → Option Operand → Instr} {bs : Bytes} {i : Instr}
    (h : parseC4 mk bs = .ok i) :
    ∃ fs ho dop, bs = fs.code :: pmask ho dop :: (encodeOptional ho ++ encodeOptional dop) ∧
      Operand.optWf ho = true ∧ Operand.optWf dop = true ∧ i = mk fs ho dop := by
  unfold parseC4 at h
  split at h
  · obtain ⟨fs, h1, h2⟩ := bind_ok h
    split at h2
    · cases h2
    · rename_i hb
      obtain ⟨⟨ho, rest1⟩, h3, h4⟩ := bind_ok h2
      obtain ⟨⟨dop, rest2⟩, h5, h6⟩ := bind_ok h4
      obtain ⟨rfl, rfl⟩ := finish_ok h6
      obtain ⟨rfl, w1, e1⟩ := parseOptional_ok h3
      obtain ⟨rfl, w2, e2⟩ := parseOptional_ok h5
      exact ⟨fs, ho, dop, by rw [parseFs_ok h1, ← pmask_of_bits hb e1 e2, List.append_nil], w1, w2, rfl⟩
  · cases h

theorem parseC5_ok {mk : User → Word16 → Word32 → Instr} {bs : Bytes} {i : Instr} (h : parseC5 mk bs = .ok i) :
    ∃ u m w, bs = u.code.setWidth 8 :: (be16 m ++ be32 w) ∧ i = mk u m w := by
  unfold parseC5 at h
  split at h
  · obtain ⟨u, h1, h2⟩ := bind_ok h
    obtain ⟨rfl, rfl⟩ := finish_ok h2
    exact ⟨u, _, _, by rw [parseUser_ok h1, be16_join16, be32_join32]; rfl, rfl⟩
  · cases h

theorem readDataFlags_of_bits (f : Byte) (hf : ¬16 ≤ f.toNat) : f = readDataFlags (f.getLsbD 0) (f.extractLsb' 1 3) := by
  revert f
  decide

theorem parseC6_ok {mk : Bool → BitVec 3 → Word32 → Instr} {bs : Bytes} {i : Instr} (h : parseC6 mk bs = .ok i) :
    ∃ c k p, bs = readDataFlags c k :: be32 p ∧ i = mk c k p := by
  unfold parseC6 at h
  split at h
  · split at h
    · cases h
    · rename_i hf
      obtain ⟨rfl, rfl⟩ := finish_ok h
      exact ⟨_, _, _, by rw [← readDataFlags_of_bits _ hf, be32_join32], rfl⟩
  · cases h

theorem parseC7_ok {mk : Byte → Instr} {bs : Bytes} {i : Instr} (h : parseC7 mk bs = .ok i) :
    ∃ k, bs = [k] ∧ k.toNat < Config.numRegisters ∧ i = mk k := by
  unfold parseC7 at h
  split at h
  · split at h
    · obtain ⟨rfl, rfl⟩ := finish_ok h
      exact ⟨_, rfl, by assumption, rfl⟩
    · cases h
  · cases h

/-- What the decoder reads from the host channel is a host operation. -/
theorem decodeHost_kind {c : Bytes} {i : Instr} (h : decodeHost c = .ok i) : i.kind = .hostOperation := by
  unfold decodeHost at h
  split at h
  · cases h
  · split at h
    case h_24 => cases h
    all_goals first
      | (obtain ⟨_, _, rfl⟩ := parseC1_ok h; rfl)
      | (obtain ⟨_, _, _, rfl⟩ := parseC2_ok h; rfl)
      | (obtain ⟨_, _, _, _, _, rfl⟩ := parseC3_ok h; rfl)
      | (obtain ⟨_, _, _, _, _, _, rfl⟩ := parseC4_ok h; rfl)
      | (obtain ⟨_, _, _, _, rfl⟩ := parseC5_ok h; rfl)
      | (obtain ⟨_, _, _, _, rfl⟩ := parseC6_ok h; rfl)
      | (obtain ⟨_, _, _, rfl⟩ := parseC7_ok h; rfl)
      | (obtain ⟨_, rfl⟩ := finish_ok h; rfl)

/-! ### The opcodes (30_encoding.md R99) -/

theorem decodeHost_fnew (bs : Bytes) : decodeHost (0x01 :: bs) = parseC1 .fnew bs := rfl

theorem decodeHost_setHeader (bs : Bytes) : decodeHost (0x02 :: bs) = parseC3 .setHeader bs := rfl

theorem decodeHost_setDataSize (bs : Bytes) : decodeHost (0x03 :: bs) = parseC3 .setDataSize bs := rfl

theorem decodeHost_setData (bs : Bytes) : decodeHost (0x04 :: bs) = parseC3 .setData bs := rfl

theorem decodeHost_setChecksum (bs : Bytes) : decodeHost (0x05 :: bs) = parseC1 .setChecksum bs := rfl

theorem decodeHost_setChecksumV (bs : Bytes) : decodeHost (0x06 :: bs) = parseC3 .setChecksumV bs := rfl

theorem decodeHost_prepare (bs : Bytes) : decodeHost (0x07 :: bs) = parseC4 .prepare bs := rfl

theorem decodeHost_getHeader (bs : Bytes) : decodeHost (0x08 :: bs) = parseC2 .getHeader bs := rfl

theorem decodeHost_getData (bs : Bytes) : decodeHost (0x09 :: bs) = parseC2 .getData bs := rfl

theorem decodeHost_getDataSize (bs : Bytes) : decodeHost (0x0A :: bs) = parseC2 .getDataSize bs := rfl

theorem decodeHost_getChecksum (bs : Bytes) : decodeHost (0x0B :: bs) = parseC2 .getChecksum bs := rfl

theorem decodeHost_getRaw (bs : Bytes) : decodeHost (0x0C :: bs) = parseC1 .getRaw bs := rfl

theorem decodeHost_getHex (bs : Bytes) : decodeHost (0x0D :: bs) = parseC1 .getHex bs := rfl

theorem decodeHost_openPort (bs : Bytes) : decodeHost (0x10 :: bs) = finish .openPort bs := rfl

theorem decodeHost_write (bs : Bytes) : decodeHost (0x11 :: bs) = parseC1 .write bs := rfl

theorem decodeHost_read (bs : Bytes) : decodeHost (0x12 :: bs) = finish .read bs := rfl

theorem decodeHost_closePort (bs : Bytes) : decodeHost (0x13 :: bs) = finish .closePort bs := rfl

theorem decodeHost_pollRx (bs : Bytes) : decodeHost (0x14 :: bs) = finish .pollRx bs := rfl

theorem decodeHost_runAuth (bs : Bytes) : decodeHost (0x20 :: bs) = parseC5 .runAuth bs := rfl

theorem decodeHost_runInit (bs : Bytes) : decodeHost (0x21 :: bs) = finish .runInit bs := rfl

theorem decodeHost_readData (bs : Bytes) : decodeHost (0x22 :: bs) = parseC6 .readData bs := rfl

theorem decodeHost_stop (bs : Bytes) : decodeHost (0x23 :: bs) = finish .stop bs := rfl

theorem decodeHost_rdReg (bs : Bytes) : decodeHost (0x30 :: bs) = parseC7 .rdReg bs := rfl

/-! ### Reading back what the encoder writes -/

@[simp] theorem parseFs_code (fs : FrameSel) : parseFs fs.code = .ok fs := by cases fs <;> rfl

@[simp] theorem parseFmt_code (f : Fmt) : parseFmt f.code = .ok f := by cases f <;> rfl

@[simp] theorem parseUser_code (u : User) : parseUser (u.code.setWidth 8) = .ok u := by cases u <;> rfl

@[simp] theorem parseVerify_flag (v : Bool) : parseVerify (verifyFlag v) = .ok v := by cases v <;> rfl

theorem parseOperand_encode {r : Operand} (h : r.wf = true) (tail : Bytes) :
    parseOperand (encodeOperand r ++ tail) = .ok (r, tail) := by
  have hl : r.payload.length < 65536 := by simpa [Operand.wf] using h
  have hn : (BitVec.ofNat 16 r.payload.length).toNat = r.payload.length := by simpa using hl
  simp only [encodeOperand, be16, List.cons_append, List.nil_append, parseOperand, Fmt.ofCode_code, join16_be16, hn]
  rw [if_neg (by simp)]
  simp

theorem parseOptional_encode {o : Option Operand} (h : Operand.optWf o = true) (tail : Bytes) :
    parseOptional o.isSome (encodeOptional o ++ tail) = .ok (o, tail) := by
  cases o with
  | none => rfl
  | some r => simp only [parseOptional, Option.isSome_some, if_true, encodeOptional, parseOperand_encode h tail]

theorem pmask_bits (h d : Option Operand) :
    ¬4 ≤ (pmask h d).toNat ∧ (pmask h d).getLsbD 0 = h.isSome ∧ (pmask h d).getLsbD 1 = d.isSome := by
  have key : ∀ a b : Bool, ¬4 ≤ (BitVec.ofNat 8 (a.toNat + 2 * b.toNat)).toNat ∧
      (BitVec.ofNat 8 (a.toNat + 2 * b.toNat)).getLsbD 0 = a ∧
      (BitVec.ofNat 8 (a.toNat + 2 * b.toNat)).getLsbD 1 = b := by decide
  exact key _ _

theorem readDataFlags_bits (ufc : Bool) (sinks : BitVec 3) :
    ¬16 ≤ (readDataFlags ufc sinks).toNat ∧ (readDataFlags ufc sinks).getLsbD 0 = ufc ∧
      (readDataFlags ufc sinks).extractLsb' 1 3 = sinks := by
  revert ufc sinks
  decide

end Sys2Proof
end

