-- ==== Sys2Proof/Laws/Memory.lean ====
section
/-!
SUPPORT. The RX burst buffer's bytes: a read after a write, and the canonical form kept by every write (10_state.md R43).
-/

namespace Sys2Proof.Machine

/-- Every listed address is at least `a`, as far as the canonical form tells it. -/
def Memory.startsFrom (a : Nat) : Memory → Prop
  | [] => True
  | (k, _) :: _ => a ≤ k

theorem Memory.wf_tail {c : Host.Cell} {m : Memory} (h : Memory.wf (c :: m)) : Memory.wf m := by
  cases m with
  | nil => rfl
  | cons d m =>
    obtain ⟨a, v⟩ := c
    obtain ⟨b, w⟩ := d
    simp only [Memory.wf, Bool.and_eq_true] at h
    exact h.2

theorem Memory.wf_cons {a : Nat} {v : Byte} {m : Memory} (hm : Memory.wf m) (hs : Memory.startsFrom (a + 1) m) :
    Memory.wf ((a, v) :: m) := by
  cases m with
  | nil => rfl
  | cons d m =>
    obtain ⟨b, w⟩ := d
    simp only [Memory.wf, Bool.and_eq_true, decide_eq_true_eq]
    exact ⟨hs, hm⟩

theorem Memory.startsFrom_tail {a : Nat} {v : Byte} {m : Memory} (h : Memory.wf ((a, v) :: m)) :
    Memory.startsFrom (a + 1) m := by
  cases m with
  | nil => trivial
  | cons d m =>
    obtain ⟨b, w⟩ := d
    simp only [Memory.wf, Bool.and_eq_true, decide_eq_true_eq] at h
    exact h.1

theorem Memory.startsFrom_write {a b : Nat} {v : Byte} {m : Memory} (hs : Memory.startsFrom a m) (hb : a ≤ b) :
    Memory.startsFrom a (Memory.write m b v) := by
  cases m with
  | nil => exact hb
  | cons d m =>
    obtain ⟨k, w⟩ := d
    unfold Memory.write
    split
    · exact hb
    · split
      · exact hb
      · exact hs

/-- A write keeps the canonical form. -/
theorem Memory.wf_write {m : Memory} (h : Memory.wf m) (a : Nat) (v : Byte) : Memory.wf (Memory.write m a v) := by
  induction m with
  | nil => rfl
  | cons d m ih =>
    obtain ⟨k, w⟩ := d
    unfold Memory.write
    split
    · exact Memory.wf_cons h (by simpa [Memory.startsFrom])
    · split
      · rename_i _ hk
        subst hk
        exact Memory.wf_cons (Memory.wf_tail h) (Memory.startsFrom_tail h)
      · exact Memory.wf_cons (ih (Memory.wf_tail h))
          (Memory.startsFrom_write (Memory.startsFrom_tail h) (by omega))

/-- Storing a byte string keeps the canonical form. -/
theorem Memory.wf_store {m : Memory} (h : Memory.wf m) (a : Nat) (bs : Bytes) : Memory.wf (Memory.store m a bs) := by
  induction bs generalizing m a with
  | nil => exact h
  | cons b bs ih => exact ih (Memory.wf_write h a b) (a + 1)

/-- A byte below every listed address has no value. -/
theorem Memory.read_below {m : Memory} (h : Memory.wf m) {a : Nat} (hs : Memory.startsFrom (a + 1) m) :
    Memory.read m a = none := by
  induction m with
  | nil => rfl
  | cons d m ih =>
    obtain ⟨k, w⟩ := d
    have hk : ¬k = a := by
      have : a + 1 ≤ k := hs
      omega
    simp only [Memory.read, hk, if_false]
    refine ih (Memory.wf_tail h) ?_
    have ht := Memory.startsFrom_tail h
    cases m with
    | nil => trivial
    | cons e m =>
      obtain ⟨j, x⟩ := e
      have h1 : k + 1 ≤ j := ht
      have h2 : a + 1 ≤ k := hs
      show a + 1 ≤ j
      omega

/-- Reading a byte after a write to it gives the value written. -/
@[simp] theorem Memory.read_write_same (m : Memory) (a : Nat) (v : Byte) :
    Memory.read (Memory.write m a v) a = some v := by
  induction m with
  | nil => simp [Memory.write, Memory.read]
  | cons d m ih =>
    obtain ⟨k, w⟩ := d
    unfold Memory.write
    split
    · simp [Memory.read]
    · split
      · simp [Memory.read]
      · rename_i _ h
        simp [Memory.read, Ne.symm h, ih]

/-- A write leaves every other byte alone. -/
theorem Memory.read_write_other (m : Memory) {a c : Nat} (v : Byte) (h : c ≠ a) :
    Memory.read (Memory.write m a v) c = Memory.read m c := by
  induction m with
  | nil => simp [Memory.write, Memory.read, Ne.symm h]
  | cons d m ih =>
    obtain ⟨k, w⟩ := d
    unfold Memory.write
    split
    · simp [Memory.read, Ne.symm h]
    · split
      · rename_i _ hk
        subst hk
        simp [Memory.read, Ne.symm h]
      · simp only [Memory.read, ih]

/-- A byte below the stored range keeps its value. -/
theorem Memory.read_store_below (m : Memory) (a c : Nat) (bs : Bytes) (h : c < a) :
    Memory.read (Memory.store m a bs) c = Memory.read m c := by
  induction bs generalizing m a with
  | nil => rfl
  | cons b bs ih =>
    rw [Memory.store, ih _ _ (by omega), Memory.read_write_other _ _ (by omega)]

/-- Every byte after a store: the stored ones in order from the first address, every other one as before. -/
theorem Memory.read_store (m : Memory) (a c : Nat) (bs : Bytes) :
    Memory.read (Memory.store m a bs) c = if a ≤ c ∧ c < a + bs.length then bs[c - a]? else Memory.read m c := by
  induction bs generalizing m a with
  | nil =>
    have h : ¬(a ≤ c ∧ c < a + ([] : Bytes).length) := by simp
    rw [if_neg h]
    rfl
  | cons b bs ih =>
    rw [Memory.store, ih]
    by_cases h1 : c = a
    · subst h1
      simp
    · by_cases h2 : a + 1 ≤ c ∧ c < a + 1 + bs.length
      · have h3 : a ≤ c ∧ c < a + (b :: bs).length := by simp only [List.length_cons]; omega
        have h4 : c - a = (c - (a + 1)) + 1 := by omega
        rw [if_pos h2, if_pos h3, h4, List.getElem?_cons_succ]
      · have h3 : ¬(a ≤ c ∧ c < a + (b :: bs).length) := by simp only [List.length_cons]; omega
        rw [if_neg h2, if_neg h3, Memory.read_write_other _ _ h1]

/-- A stored byte string is read back. -/
theorem Memory.load_store (m : Memory) (a : Nat) (bs : Bytes) :
    Memory.load (Memory.store m a bs) a bs.length = bs := by
  induction bs generalizing m a with
  | nil => rfl
  | cons b bs ih =>
    have hb : Memory.read (Memory.store (Memory.write m a b) (a + 1) bs) a = some b := by
      rw [Memory.read_store_below _ _ _ _ (by omega), Memory.read_write_same]
    simp only [Memory.store, List.length_cons, Memory.load, hb, ih]
    rfl

/-- What `READ` slices is the burst, cut at the buffer's capacity (41_transport.md R169). -/
@[simp] theorem State.bufferBytes_fillBuffer (s : State) (b : Bytes) :
    (s.fillBuffer b).bufferBytes = b.take Config.rxbufCap :=
  Memory.load_store [] 0 (b.take Config.rxbufCap)

/-- A filled buffer is in canonical form. -/
theorem State.rxbuf_fillBuffer_wf (s : State) (b : Bytes) : Memory.wf (s.fillBuffer b).rxbuf :=
  Memory.wf_store rfl 0 _

/-- The reset state's buffer is in canonical form. -/
theorem State.reset_rxbuf_wf : Memory.wf State.reset.rxbuf := rfl

end Sys2Proof.Machine
end

