-- ==== Sys2Proof/Laws/State.lean ====
section
/-!
SUPPORT. One lemma per field per update of the state, so that no later proof unfolds an update.
-/

namespace Sys2Proof.Machine

/-! ### respond -/

@[simp] theorem State.respond_txf (s : State) (r : Response) : (s.respond r).txf = s.txf := rfl
@[simp] theorem State.respond_rxf (s : State) (r : Response) : (s.respond r).rxf = s.rxf := rfl
@[simp] theorem State.respond_rxbuf (s : State) (r : Response) : (s.respond r).rxbuf = s.rxbuf := rfl
@[simp] theorem State.respond_rxbufN (s : State) (r : Response) : (s.respond r).rxbufN = s.rxbufN := rfl
@[simp] theorem State.respond_stage (s : State) (r : Response) : (s.respond r).stage = s.stage := rfl
@[simp] theorem State.respond_upc (s : State) (r : Response) : (s.respond r).upc = s.upc := rfl
@[simp] theorem State.respond_portOpen (s : State) (r : Response) : (s.respond r).portOpen = s.portOpen := rfl
@[simp] theorem State.respond_rdBudget (s : State) (r : Response) : (s.respond r).rdBudget = s.rdBudget := rfl
@[simp] theorem State.respond_rdGranule (s : State) (r : Response) : (s.respond r).rdGranule = s.rdGranule := rfl
@[simp] theorem State.respond_hostRead (s : State) (r : Response) : (s.respond r).hostRead = s.hostRead := rfl
@[simp] theorem State.respond_user (s : State) (r : Response) : (s.respond r).user = s.user := rfl
@[simp] theorem State.respond_maxRetry (s : State) (r : Response) : (s.respond r).maxRetry = s.maxRetry := rfl
@[simp] theorem State.respond_retryWait (s : State) (r : Response) : (s.respond r).retryWait = s.retryWait := rfl
@[simp] theorem State.respond_pollInt (s : State) (r : Response) : (s.respond r).pollInt = s.pollInt := rfl
@[simp] theorem State.respond_sinkMask (s : State) (r : Response) : (s.respond r).sinkMask = s.sinkMask := rfl
@[simp] theorem State.respond_ufc (s : State) (r : Response) : (s.respond r).ufc = s.ufc := rfl
@[simp] theorem State.respond_retry (s : State) (r : Response) : (s.respond r).retry = s.retry := rfl
@[simp] theorem State.respond_attempts (s : State) (r : Response) : (s.respond r).attempts = s.attempts := rfl
@[simp] theorem State.respond_burst (s : State) (r : Response) : (s.respond r).burst = s.burst := rfl
@[simp] theorem State.respond_p4Try (s : State) (r : Response) : (s.respond r).p4Try = s.p4Try := rfl
@[simp] theorem State.respond_cycle (s : State) (r : Response) : (s.respond r).cycle = s.cycle := rfl
@[simp] theorem State.respond_probeHdr (s : State) (r : Response) : (s.respond r).probeHdr = s.probeHdr := rfl
@[simp] theorem State.respond_lastHdr (s : State) (r : Response) : (s.respond r).lastHdr = s.lastHdr := rfl
@[simp] theorem State.respond_toggle (s : State) (r : Response) : (s.respond r).toggle = s.toggle := rfl
@[simp] theorem State.respond_ts (s : State) (r : Response) : (s.respond r).ts = s.ts := rfl
@[simp] theorem State.respond_stopPending (s : State) (r : Response) : (s.respond r).stopPending = s.stopPending := rfl
@[simp] theorem State.respond_err (s : State) (r : Response) : (s.respond r).err = s.err := rfl
@[simp] theorem State.respond_responses (s : State) (r : Response) : (s.respond r).responses = s.responses ++ [r] := rfl
@[simp] theorem State.respond_tx (s : State) (r : Response) : (s.respond r).tx = s.tx := rfl
@[simp] theorem State.respond_sinks (s : State) (r : Response) : (s.respond r).sinks = s.sinks := rfl
@[simp] theorem State.respond_log (s : State) (r : Response) : (s.respond r).log = s.log := rfl
@[simp] theorem State.respond_rxPending (s : State) (r : Response) : (s.respond r).rxPending = s.rxPending := rfl
@[simp] theorem State.respond_inputs (s : State) (r : Response) : (s.respond r).inputs = s.inputs := rfl
@[simp] theorem State.respond_clockReads (s : State) (r : Response) : (s.respond r).clockReads = s.clockReads := rfl

/-! ### respondOk -/

@[simp] theorem State.respondOk_txf (s : State) : s.respondOk.txf = s.txf := rfl
@[simp] theorem State.respondOk_rxf (s : State) : s.respondOk.rxf = s.rxf := rfl
@[simp] theorem State.respondOk_rxbuf (s : State) : s.respondOk.rxbuf = s.rxbuf := rfl
@[simp] theorem State.respondOk_rxbufN (s : State) : s.respondOk.rxbufN = s.rxbufN := rfl
@[simp] theorem State.respondOk_stage (s : State) : s.respondOk.stage = s.stage := rfl
@[simp] theorem State.respondOk_upc (s : State) : s.respondOk.upc = s.upc := rfl
@[simp] theorem State.respondOk_portOpen (s : State) : s.respondOk.portOpen = s.portOpen := rfl
@[simp] theorem State.respondOk_rdBudget (s : State) : s.respondOk.rdBudget = s.rdBudget := rfl
@[simp] theorem State.respondOk_rdGranule (s : State) : s.respondOk.rdGranule = s.rdGranule := rfl
@[simp] theorem State.respondOk_hostRead (s : State) : s.respondOk.hostRead = s.hostRead := rfl
@[simp] theorem State.respondOk_user (s : State) : s.respondOk.user = s.user := rfl
@[simp] theorem State.respondOk_maxRetry (s : State) : s.respondOk.maxRetry = s.maxRetry := rfl
@[simp] theorem State.respondOk_retryWait (s : State) : s.respondOk.retryWait = s.retryWait := rfl
@[simp] theorem State.respondOk_pollInt (s : State) : s.respondOk.pollInt = s.pollInt := rfl
@[simp] theorem State.respondOk_sinkMask (s : State) : s.respondOk.sinkMask = s.sinkMask := rfl
@[simp] theorem State.respondOk_ufc (s : State) : s.respondOk.ufc = s.ufc := rfl
@[simp] theorem State.respondOk_retry (s : State) : s.respondOk.retry = s.retry := rfl
@[simp] theorem State.respondOk_attempts (s : State) : s.respondOk.attempts = s.attempts := rfl
@[simp] theorem State.respondOk_burst (s : State) : s.respondOk.burst = s.burst := rfl
@[simp] theorem State.respondOk_p4Try (s : State) : s.respondOk.p4Try = s.p4Try := rfl
@[simp] theorem State.respondOk_cycle (s : State) : s.respondOk.cycle = s.cycle := rfl
@[simp] theorem State.respondOk_probeHdr (s : State) : s.respondOk.probeHdr = s.probeHdr := rfl
@[simp] theorem State.respondOk_lastHdr (s : State) : s.respondOk.lastHdr = s.lastHdr := rfl
@[simp] theorem State.respondOk_toggle (s : State) : s.respondOk.toggle = s.toggle := rfl
@[simp] theorem State.respondOk_ts (s : State) : s.respondOk.ts = s.ts := rfl
@[simp] theorem State.respondOk_stopPending (s : State) : s.respondOk.stopPending = s.stopPending := rfl
@[simp] theorem State.respondOk_err (s : State) : s.respondOk.err = s.err := rfl
@[simp] theorem State.respondOk_responses (s : State) : s.respondOk.responses = s.responses ++ [.ok .empty] := rfl
@[simp] theorem State.respondOk_tx (s : State) : s.respondOk.tx = s.tx := rfl
@[simp] theorem State.respondOk_sinks (s : State) : s.respondOk.sinks = s.sinks := rfl
@[simp] theorem State.respondOk_log (s : State) : s.respondOk.log = s.log := rfl
@[simp] theorem State.respondOk_rxPending (s : State) : s.respondOk.rxPending = s.rxPending := rfl
@[simp] theorem State.respondOk_inputs (s : State) : s.respondOk.inputs = s.inputs := rfl
@[simp] theorem State.respondOk_clockReads (s : State) : s.respondOk.clockReads = s.clockReads := rfl

/-! ### logEvents -/

@[simp] theorem State.logEvents_txf (s : State) (es : List LogEvent) : (s.logEvents es).txf = s.txf := rfl
@[simp] theorem State.logEvents_rxf (s : State) (es : List LogEvent) : (s.logEvents es).rxf = s.rxf := rfl
@[simp] theorem State.logEvents_rxbuf (s : State) (es : List LogEvent) : (s.logEvents es).rxbuf = s.rxbuf := rfl
@[simp] theorem State.logEvents_rxbufN (s : State) (es : List LogEvent) : (s.logEvents es).rxbufN = s.rxbufN := rfl
@[simp] theorem State.logEvents_stage (s : State) (es : List LogEvent) : (s.logEvents es).stage = s.stage := rfl
@[simp] theorem State.logEvents_upc (s : State) (es : List LogEvent) : (s.logEvents es).upc = s.upc := rfl
@[simp] theorem State.logEvents_portOpen (s : State) (es : List LogEvent) : (s.logEvents es).portOpen = s.portOpen := rfl
@[simp] theorem State.logEvents_rdBudget (s : State) (es : List LogEvent) : (s.logEvents es).rdBudget = s.rdBudget := rfl
@[simp] theorem State.logEvents_rdGranule (s : State) (es : List LogEvent) : (s.logEvents es).rdGranule = s.rdGranule := rfl
@[simp] theorem State.logEvents_hostRead (s : State) (es : List LogEvent) : (s.logEvents es).hostRead = s.hostRead := rfl
@[simp] theorem State.logEvents_user (s : State) (es : List LogEvent) : (s.logEvents es).user = s.user := rfl
@[simp] theorem State.logEvents_maxRetry (s : State) (es : List LogEvent) : (s.logEvents es).maxRetry = s.maxRetry := rfl
@[simp] theorem State.logEvents_retryWait (s : State) (es : List LogEvent) : (s.logEvents es).retryWait = s.retryWait := rfl
@[simp] theorem State.logEvents_pollInt (s : State) (es : List LogEvent) : (s.logEvents es).pollInt = s.pollInt := rfl
@[simp] theorem State.logEvents_sinkMask (s : State) (es : List LogEvent) : (s.logEvents es).sinkMask = s.sinkMask := rfl
@[simp] theorem State.logEvents_ufc (s : State) (es : List LogEvent) : (s.logEvents es).ufc = s.ufc := rfl
@[simp] theorem State.logEvents_retry (s : State) (es : List LogEvent) : (s.logEvents es).retry = s.retry := rfl
@[simp] theorem State.logEvents_attempts (s : State) (es : List LogEvent) : (s.logEvents es).attempts = s.attempts := rfl
@[simp] theorem State.logEvents_burst (s : State) (es : List LogEvent) : (s.logEvents es).burst = s.burst := rfl
@[simp] theorem State.logEvents_p4Try (s : State) (es : List LogEvent) : (s.logEvents es).p4Try = s.p4Try := rfl
@[simp] theorem State.logEvents_cycle (s : State) (es : List LogEvent) : (s.logEvents es).cycle = s.cycle := rfl
@[simp] theorem State.logEvents_probeHdr (s : State) (es : List LogEvent) : (s.logEvents es).probeHdr = s.probeHdr := rfl
@[simp] theorem State.logEvents_lastHdr (s : State) (es : List LogEvent) : (s.logEvents es).lastHdr = s.lastHdr := rfl
@[simp] theorem State.logEvents_toggle (s : State) (es : List LogEvent) : (s.logEvents es).toggle = s.toggle := rfl
@[simp] theorem State.logEvents_ts (s : State) (es : List LogEvent) : (s.logEvents es).ts = s.ts := rfl
@[simp] theorem State.logEvents_stopPending (s : State) (es : List LogEvent) : (s.logEvents es).stopPending = s.stopPending := rfl
@[simp] theorem State.logEvents_err (s : State) (es : List LogEvent) : (s.logEvents es).err = s.err := rfl
@[simp] theorem State.logEvents_responses (s : State) (es : List LogEvent) : (s.logEvents es).responses = s.responses := rfl
@[simp] theorem State.logEvents_tx (s : State) (es : List LogEvent) : (s.logEvents es).tx = s.tx := rfl
@[simp] theorem State.logEvents_sinks (s : State) (es : List LogEvent) : (s.logEvents es).sinks = s.sinks := rfl
@[simp] theorem State.logEvents_log (s : State) (es : List LogEvent) : (s.logEvents es).log = s.log ++ es := rfl
@[simp] theorem State.logEvents_rxPending (s : State) (es : List LogEvent) : (s.logEvents es).rxPending = s.rxPending := rfl
@[simp] theorem State.logEvents_inputs (s : State) (es : List LogEvent) : (s.logEvents es).inputs = s.inputs := rfl
@[simp] theorem State.logEvents_clockReads (s : State) (es : List LogEvent) : (s.logEvents es).clockReads = s.clockReads := rfl

/-! ### lineTx -/

@[simp] theorem State.lineTx_txf (s : State) (bs : Bytes) : (s.lineTx bs).txf = s.txf := rfl
@[simp] theorem State.lineTx_rxf (s : State) (bs : Bytes) : (s.lineTx bs).rxf = s.rxf := rfl
@[simp] theorem State.lineTx_rxbuf (s : State) (bs : Bytes) : (s.lineTx bs).rxbuf = s.rxbuf := rfl
@[simp] theorem State.lineTx_rxbufN (s : State) (bs : Bytes) : (s.lineTx bs).rxbufN = s.rxbufN := rfl
@[simp] theorem State.lineTx_stage (s : State) (bs : Bytes) : (s.lineTx bs).stage = s.stage := rfl
@[simp] theorem State.lineTx_upc (s : State) (bs : Bytes) : (s.lineTx bs).upc = s.upc := rfl
@[simp] theorem State.lineTx_portOpen (s : State) (bs : Bytes) : (s.lineTx bs).portOpen = s.portOpen := rfl
@[simp] theorem State.lineTx_rdBudget (s : State) (bs : Bytes) : (s.lineTx bs).rdBudget = s.rdBudget := rfl
@[simp] theorem State.lineTx_rdGranule (s : State) (bs : Bytes) : (s.lineTx bs).rdGranule = s.rdGranule := rfl
@[simp] theorem State.lineTx_hostRead (s : State) (bs : Bytes) : (s.lineTx bs).hostRead = s.hostRead := rfl
@[simp] theorem State.lineTx_user (s : State) (bs : Bytes) : (s.lineTx bs).user = s.user := rfl
@[simp] theorem State.lineTx_maxRetry (s : State) (bs : Bytes) : (s.lineTx bs).maxRetry = s.maxRetry := rfl
@[simp] theorem State.lineTx_retryWait (s : State) (bs : Bytes) : (s.lineTx bs).retryWait = s.retryWait := rfl
@[simp] theorem State.lineTx_pollInt (s : State) (bs : Bytes) : (s.lineTx bs).pollInt = s.pollInt := rfl
@[simp] theorem State.lineTx_sinkMask (s : State) (bs : Bytes) : (s.lineTx bs).sinkMask = s.sinkMask := rfl
@[simp] theorem State.lineTx_ufc (s : State) (bs : Bytes) : (s.lineTx bs).ufc = s.ufc := rfl
@[simp] theorem State.lineTx_retry (s : State) (bs : Bytes) : (s.lineTx bs).retry = s.retry := rfl
@[simp] theorem State.lineTx_attempts (s : State) (bs : Bytes) : (s.lineTx bs).attempts = s.attempts := rfl
@[simp] theorem State.lineTx_burst (s : State) (bs : Bytes) : (s.lineTx bs).burst = s.burst := rfl
@[simp] theorem State.lineTx_p4Try (s : State) (bs : Bytes) : (s.lineTx bs).p4Try = s.p4Try := rfl
@[simp] theorem State.lineTx_cycle (s : State) (bs : Bytes) : (s.lineTx bs).cycle = s.cycle := rfl
@[simp] theorem State.lineTx_probeHdr (s : State) (bs : Bytes) : (s.lineTx bs).probeHdr = s.probeHdr := rfl
@[simp] theorem State.lineTx_lastHdr (s : State) (bs : Bytes) : (s.lineTx bs).lastHdr = s.lastHdr := rfl
@[simp] theorem State.lineTx_toggle (s : State) (bs : Bytes) : (s.lineTx bs).toggle = s.toggle := rfl
@[simp] theorem State.lineTx_ts (s : State) (bs : Bytes) : (s.lineTx bs).ts = s.ts := rfl
@[simp] theorem State.lineTx_stopPending (s : State) (bs : Bytes) : (s.lineTx bs).stopPending = s.stopPending := rfl
@[simp] theorem State.lineTx_err (s : State) (bs : Bytes) : (s.lineTx bs).err = s.err := rfl
@[simp] theorem State.lineTx_responses (s : State) (bs : Bytes) : (s.lineTx bs).responses = s.responses := rfl
@[simp] theorem State.lineTx_tx (s : State) (bs : Bytes) : (s.lineTx bs).tx = s.tx ++ bs := rfl
@[simp] theorem State.lineTx_sinks (s : State) (bs : Bytes) : (s.lineTx bs).sinks = s.sinks := rfl
@[simp] theorem State.lineTx_log (s : State) (bs : Bytes) : (s.lineTx bs).log = s.log := rfl
@[simp] theorem State.lineTx_rxPending (s : State) (bs : Bytes) : (s.lineTx bs).rxPending = s.rxPending := rfl
@[simp] theorem State.lineTx_inputs (s : State) (bs : Bytes) : (s.lineTx bs).inputs = s.inputs := rfl
@[simp] theorem State.lineTx_clockReads (s : State) (bs : Bytes) : (s.lineTx bs).clockReads = s.clockReads := rfl

/-! ### emit -/

@[simp] theorem State.emit_txf (s : State) (rs : List SinkRecord) : (s.emit rs).txf = s.txf := rfl
@[simp] theorem State.emit_rxf (s : State) (rs : List SinkRecord) : (s.emit rs).rxf = s.rxf := rfl
@[simp] theorem State.emit_rxbuf (s : State) (rs : List SinkRecord) : (s.emit rs).rxbuf = s.rxbuf := rfl
@[simp] theorem State.emit_rxbufN (s : State) (rs : List SinkRecord) : (s.emit rs).rxbufN = s.rxbufN := rfl
@[simp] theorem State.emit_stage (s : State) (rs : List SinkRecord) : (s.emit rs).stage = s.stage := rfl
@[simp] theorem State.emit_upc (s : State) (rs : List SinkRecord) : (s.emit rs).upc = s.upc := rfl
@[simp] theorem State.emit_portOpen (s : State) (rs : List SinkRecord) : (s.emit rs).portOpen = s.portOpen := rfl
@[simp] theorem State.emit_rdBudget (s : State) (rs : List SinkRecord) : (s.emit rs).rdBudget = s.rdBudget := rfl
@[simp] theorem State.emit_rdGranule (s : State) (rs : List SinkRecord) : (s.emit rs).rdGranule = s.rdGranule := rfl
@[simp] theorem State.emit_hostRead (s : State) (rs : List SinkRecord) : (s.emit rs).hostRead = s.hostRead := rfl
@[simp] theorem State.emit_user (s : State) (rs : List SinkRecord) : (s.emit rs).user = s.user := rfl
@[simp] theorem State.emit_maxRetry (s : State) (rs : List SinkRecord) : (s.emit rs).maxRetry = s.maxRetry := rfl
@[simp] theorem State.emit_retryWait (s : State) (rs : List SinkRecord) : (s.emit rs).retryWait = s.retryWait := rfl
@[simp] theorem State.emit_pollInt (s : State) (rs : List SinkRecord) : (s.emit rs).pollInt = s.pollInt := rfl
@[simp] theorem State.emit_sinkMask (s : State) (rs : List SinkRecord) : (s.emit rs).sinkMask = s.sinkMask := rfl
@[simp] theorem State.emit_ufc (s : State) (rs : List SinkRecord) : (s.emit rs).ufc = s.ufc := rfl
@[simp] theorem State.emit_retry (s : State) (rs : List SinkRecord) : (s.emit rs).retry = s.retry := rfl
@[simp] theorem State.emit_attempts (s : State) (rs : List SinkRecord) : (s.emit rs).attempts = s.attempts := rfl
@[simp] theorem State.emit_burst (s : State) (rs : List SinkRecord) : (s.emit rs).burst = s.burst := rfl
@[simp] theorem State.emit_p4Try (s : State) (rs : List SinkRecord) : (s.emit rs).p4Try = s.p4Try := rfl
@[simp] theorem State.emit_cycle (s : State) (rs : List SinkRecord) : (s.emit rs).cycle = s.cycle := rfl
@[simp] theorem State.emit_probeHdr (s : State) (rs : List SinkRecord) : (s.emit rs).probeHdr = s.probeHdr := rfl
@[simp] theorem State.emit_lastHdr (s : State) (rs : List SinkRecord) : (s.emit rs).lastHdr = s.lastHdr := rfl
@[simp] theorem State.emit_toggle (s : State) (rs : List SinkRecord) : (s.emit rs).toggle = s.toggle := rfl
@[simp] theorem State.emit_ts (s : State) (rs : List SinkRecord) : (s.emit rs).ts = s.ts := rfl
@[simp] theorem State.emit_stopPending (s : State) (rs : List SinkRecord) : (s.emit rs).stopPending = s.stopPending := rfl
@[simp] theorem State.emit_err (s : State) (rs : List SinkRecord) : (s.emit rs).err = s.err := rfl
@[simp] theorem State.emit_responses (s : State) (rs : List SinkRecord) : (s.emit rs).responses = s.responses := rfl
@[simp] theorem State.emit_tx (s : State) (rs : List SinkRecord) : (s.emit rs).tx = s.tx := rfl
@[simp] theorem State.emit_sinks (s : State) (rs : List SinkRecord) : (s.emit rs).sinks = s.sinks ++ rs := rfl
@[simp] theorem State.emit_log (s : State) (rs : List SinkRecord) : (s.emit rs).log = s.log := rfl
@[simp] theorem State.emit_rxPending (s : State) (rs : List SinkRecord) : (s.emit rs).rxPending = s.rxPending := rfl
@[simp] theorem State.emit_inputs (s : State) (rs : List SinkRecord) : (s.emit rs).inputs = s.inputs := rfl
@[simp] theorem State.emit_clockReads (s : State) (rs : List SinkRecord) : (s.emit rs).clockReads = s.clockReads := rfl

/-! ### countAttempt -/

@[simp] theorem State.countAttempt_txf (s : State) : s.countAttempt.txf = s.txf := rfl
@[simp] theorem State.countAttempt_rxf (s : State) : s.countAttempt.rxf = s.rxf := rfl
@[simp] theorem State.countAttempt_rxbuf (s : State) : s.countAttempt.rxbuf = s.rxbuf := rfl
@[simp] theorem State.countAttempt_rxbufN (s : State) : s.countAttempt.rxbufN = s.rxbufN := rfl
@[simp] theorem State.countAttempt_stage (s : State) : s.countAttempt.stage = s.stage := rfl
@[simp] theorem State.countAttempt_upc (s : State) : s.countAttempt.upc = s.upc := rfl
@[simp] theorem State.countAttempt_portOpen (s : State) : s.countAttempt.portOpen = s.portOpen := rfl
@[simp] theorem State.countAttempt_rdBudget (s : State) : s.countAttempt.rdBudget = s.rdBudget := rfl
@[simp] theorem State.countAttempt_rdGranule (s : State) : s.countAttempt.rdGranule = s.rdGranule := rfl
@[simp] theorem State.countAttempt_hostRead (s : State) : s.countAttempt.hostRead = s.hostRead := rfl
@[simp] theorem State.countAttempt_user (s : State) : s.countAttempt.user = s.user := rfl
@[simp] theorem State.countAttempt_maxRetry (s : State) : s.countAttempt.maxRetry = s.maxRetry := rfl
@[simp] theorem State.countAttempt_retryWait (s : State) : s.countAttempt.retryWait = s.retryWait := rfl
@[simp] theorem State.countAttempt_pollInt (s : State) : s.countAttempt.pollInt = s.pollInt := rfl
@[simp] theorem State.countAttempt_sinkMask (s : State) : s.countAttempt.sinkMask = s.sinkMask := rfl
@[simp] theorem State.countAttempt_ufc (s : State) : s.countAttempt.ufc = s.ufc := rfl
@[simp] theorem State.countAttempt_retry (s : State) : s.countAttempt.retry = s.retry := rfl
@[simp] theorem State.countAttempt_attempts (s : State) : s.countAttempt.attempts = satInc s.attempts := rfl
@[simp] theorem State.countAttempt_burst (s : State) : s.countAttempt.burst = s.burst := rfl
@[simp] theorem State.countAttempt_p4Try (s : State) : s.countAttempt.p4Try = s.p4Try := rfl
@[simp] theorem State.countAttempt_cycle (s : State) : s.countAttempt.cycle = s.cycle := rfl
@[simp] theorem State.countAttempt_probeHdr (s : State) : s.countAttempt.probeHdr = s.probeHdr := rfl
@[simp] theorem State.countAttempt_lastHdr (s : State) : s.countAttempt.lastHdr = s.lastHdr := rfl
@[simp] theorem State.countAttempt_toggle (s : State) : s.countAttempt.toggle = s.toggle := rfl
@[simp] theorem State.countAttempt_ts (s : State) : s.countAttempt.ts = s.ts := rfl
@[simp] theorem State.countAttempt_stopPending (s : State) : s.countAttempt.stopPending = s.stopPending := rfl
@[simp] theorem State.countAttempt_err (s : State) : s.countAttempt.err = s.err := rfl
@[simp] theorem State.countAttempt_responses (s : State) : s.countAttempt.responses = s.responses := rfl
@[simp] theorem State.countAttempt_tx (s : State) : s.countAttempt.tx = s.tx := rfl
@[simp] theorem State.countAttempt_sinks (s : State) : s.countAttempt.sinks = s.sinks := rfl
@[simp] theorem State.countAttempt_log (s : State) : s.countAttempt.log = s.log := rfl
@[simp] theorem State.countAttempt_rxPending (s : State) : s.countAttempt.rxPending = s.rxPending := rfl
@[simp] theorem State.countAttempt_inputs (s : State) : s.countAttempt.inputs = s.inputs := rfl
@[simp] theorem State.countAttempt_clockReads (s : State) : s.countAttempt.clockReads = s.clockReads := rfl

/-! ### closeLine -/

@[simp] theorem State.closeLine_txf (s : State) : s.closeLine.txf = s.txf := rfl
@[simp] theorem State.closeLine_rxf (s : State) : s.closeLine.rxf = s.rxf := rfl
@[simp] theorem State.closeLine_rxbuf (s : State) : s.closeLine.rxbuf = s.rxbuf := rfl
@[simp] theorem State.closeLine_rxbufN (s : State) : s.closeLine.rxbufN = s.rxbufN := rfl
@[simp] theorem State.closeLine_stage (s : State) : s.closeLine.stage = s.stage := rfl
@[simp] theorem State.closeLine_upc (s : State) : s.closeLine.upc = s.upc := rfl
@[simp] theorem State.closeLine_portOpen (s : State) : s.closeLine.portOpen = false := rfl
@[simp] theorem State.closeLine_rdBudget (s : State) : s.closeLine.rdBudget = s.rdBudget := rfl
@[simp] theorem State.closeLine_rdGranule (s : State) : s.closeLine.rdGranule = s.rdGranule := rfl
@[simp] theorem State.closeLine_hostRead (s : State) : s.closeLine.hostRead = s.hostRead := rfl
@[simp] theorem State.closeLine_user (s : State) : s.closeLine.user = s.user := rfl
@[simp] theorem State.closeLine_maxRetry (s : State) : s.closeLine.maxRetry = s.maxRetry := rfl
@[simp] theorem State.closeLine_retryWait (s : State) : s.closeLine.retryWait = s.retryWait := rfl
@[simp] theorem State.closeLine_pollInt (s : State) : s.closeLine.pollInt = s.pollInt := rfl
@[simp] theorem State.closeLine_sinkMask (s : State) : s.closeLine.sinkMask = s.sinkMask := rfl
@[simp] theorem State.closeLine_ufc (s : State) : s.closeLine.ufc = s.ufc := rfl
@[simp] theorem State.closeLine_retry (s : State) : s.closeLine.retry = s.retry := rfl
@[simp] theorem State.closeLine_attempts (s : State) : s.closeLine.attempts = s.attempts := rfl
@[simp] theorem State.closeLine_burst (s : State) : s.closeLine.burst = s.burst := rfl
@[simp] theorem State.closeLine_p4Try (s : State) : s.closeLine.p4Try = s.p4Try := rfl
@[simp] theorem State.closeLine_cycle (s : State) : s.closeLine.cycle = s.cycle := rfl
@[simp] theorem State.closeLine_probeHdr (s : State) : s.closeLine.probeHdr = s.probeHdr := rfl
@[simp] theorem State.closeLine_lastHdr (s : State) : s.closeLine.lastHdr = s.lastHdr := rfl
@[simp] theorem State.closeLine_toggle (s : State) : s.closeLine.toggle = s.toggle := rfl
@[simp] theorem State.closeLine_ts (s : State) : s.closeLine.ts = s.ts := rfl
@[simp] theorem State.closeLine_stopPending (s : State) : s.closeLine.stopPending = s.stopPending := rfl
@[simp] theorem State.closeLine_err (s : State) : s.closeLine.err = s.err := rfl
@[simp] theorem State.closeLine_responses (s : State) : s.closeLine.responses = s.responses := rfl
@[simp] theorem State.closeLine_tx (s : State) : s.closeLine.tx = s.tx := rfl
@[simp] theorem State.closeLine_sinks (s : State) : s.closeLine.sinks = s.sinks := rfl
@[simp] theorem State.closeLine_log (s : State) : s.closeLine.log = s.log := rfl
@[simp] theorem State.closeLine_rxPending (s : State) : s.closeLine.rxPending = [] := rfl
@[simp] theorem State.closeLine_inputs (s : State) : s.closeLine.inputs = s.inputs := rfl
@[simp] theorem State.closeLine_clockReads (s : State) : s.closeLine.clockReads = s.clockReads := rfl

/-! ### fillBuffer -/

@[simp] theorem State.fillBuffer_txf (s : State) (b : Bytes) : (s.fillBuffer b).txf = s.txf := rfl
@[simp] theorem State.fillBuffer_rxf (s : State) (b : Bytes) : (s.fillBuffer b).rxf = s.rxf := rfl
@[simp] theorem State.fillBuffer_rxbuf (s : State) (b : Bytes) : (s.fillBuffer b).rxbuf = Memory.store [] 0 (b.take Config.rxbufCap) := rfl
@[simp] theorem State.fillBuffer_rxbufN (s : State) (b : Bytes) : (s.fillBuffer b).rxbufN = (b.take Config.rxbufCap).length := rfl
@[simp] theorem State.fillBuffer_stage (s : State) (b : Bytes) : (s.fillBuffer b).stage = s.stage := rfl
@[simp] theorem State.fillBuffer_upc (s : State) (b : Bytes) : (s.fillBuffer b).upc = s.upc := rfl
@[simp] theorem State.fillBuffer_portOpen (s : State) (b : Bytes) : (s.fillBuffer b).portOpen = s.portOpen := rfl
@[simp] theorem State.fillBuffer_rdBudget (s : State) (b : Bytes) : (s.fillBuffer b).rdBudget = s.rdBudget := rfl
@[simp] theorem State.fillBuffer_rdGranule (s : State) (b : Bytes) : (s.fillBuffer b).rdGranule = s.rdGranule := rfl
@[simp] theorem State.fillBuffer_hostRead (s : State) (b : Bytes) : (s.fillBuffer b).hostRead = s.hostRead := rfl
@[simp] theorem State.fillBuffer_user (s : State) (b : Bytes) : (s.fillBuffer b).user = s.user := rfl
@[simp] theorem State.fillBuffer_maxRetry (s : State) (b : Bytes) : (s.fillBuffer b).maxRetry = s.maxRetry := rfl
@[simp] theorem State.fillBuffer_retryWait (s : State) (b : Bytes) : (s.fillBuffer b).retryWait = s.retryWait := rfl
@[simp] theorem State.fillBuffer_pollInt (s : State) (b : Bytes) : (s.fillBuffer b).pollInt = s.pollInt := rfl
@[simp] theorem State.fillBuffer_sinkMask (s : State) (b : Bytes) : (s.fillBuffer b).sinkMask = s.sinkMask := rfl
@[simp] theorem State.fillBuffer_ufc (s : State) (b : Bytes) : (s.fillBuffer b).ufc = s.ufc := rfl
@[simp] theorem State.fillBuffer_retry (s : State) (b : Bytes) : (s.fillBuffer b).retry = s.retry := rfl
@[simp] theorem State.fillBuffer_attempts (s : State) (b : Bytes) : (s.fillBuffer b).attempts = s.attempts := rfl
@[simp] theorem State.fillBuffer_burst (s : State) (b : Bytes) : (s.fillBuffer b).burst = s.burst := rfl
@[simp] theorem State.fillBuffer_p4Try (s : State) (b : Bytes) : (s.fillBuffer b).p4Try = s.p4Try := rfl
@[simp] theorem State.fillBuffer_cycle (s : State) (b : Bytes) : (s.fillBuffer b).cycle = s.cycle := rfl
@[simp] theorem State.fillBuffer_probeHdr (s : State) (b : Bytes) : (s.fillBuffer b).probeHdr = s.probeHdr := rfl
@[simp] theorem State.fillBuffer_lastHdr (s : State) (b : Bytes) : (s.fillBuffer b).lastHdr = s.lastHdr := rfl
@[simp] theorem State.fillBuffer_toggle (s : State) (b : Bytes) : (s.fillBuffer b).toggle = s.toggle := rfl
@[simp] theorem State.fillBuffer_ts (s : State) (b : Bytes) : (s.fillBuffer b).ts = s.ts := rfl
@[simp] theorem State.fillBuffer_stopPending (s : State) (b : Bytes) : (s.fillBuffer b).stopPending = s.stopPending := rfl
@[simp] theorem State.fillBuffer_err (s : State) (b : Bytes) : (s.fillBuffer b).err = s.err := rfl
@[simp] theorem State.fillBuffer_responses (s : State) (b : Bytes) : (s.fillBuffer b).responses = s.responses := rfl
@[simp] theorem State.fillBuffer_tx (s : State) (b : Bytes) : (s.fillBuffer b).tx = s.tx := rfl
@[simp] theorem State.fillBuffer_sinks (s : State) (b : Bytes) : (s.fillBuffer b).sinks = s.sinks := rfl
@[simp] theorem State.fillBuffer_log (s : State) (b : Bytes) : (s.fillBuffer b).log = s.log := rfl
@[simp] theorem State.fillBuffer_rxPending (s : State) (b : Bytes) : (s.fillBuffer b).rxPending = s.rxPending := rfl
@[simp] theorem State.fillBuffer_inputs (s : State) (b : Bytes) : (s.fillBuffer b).inputs = s.inputs := rfl
@[simp] theorem State.fillBuffer_clockReads (s : State) (b : Bytes) : (s.fillBuffer b).clockReads = s.clockReads := rfl

/-! ### writeImage -/

@[simp] theorem State.writeImage_txf (s : State) (f : Frame) (img : Bytes) : (s.writeImage f img).txf = s.txf := rfl
@[simp] theorem State.writeImage_rxf (s : State) (f : Frame) (img : Bytes) : (s.writeImage f img).rxf = s.rxf := rfl
@[simp] theorem State.writeImage_rxbuf (s : State) (f : Frame) (img : Bytes) : (s.writeImage f img).rxbuf = s.rxbuf := rfl
@[simp] theorem State.writeImage_rxbufN (s : State) (f : Frame) (img : Bytes) : (s.writeImage f img).rxbufN = s.rxbufN := rfl
@[simp] theorem State.writeImage_stage (s : State) (f : Frame) (img : Bytes) : (s.writeImage f img).stage = s.stage := rfl
@[simp] theorem State.writeImage_upc (s : State) (f : Frame) (img : Bytes) : (s.writeImage f img).upc = s.upc := rfl
@[simp] theorem State.writeImage_portOpen (s : State) (f : Frame) (img : Bytes) : (s.writeImage f img).portOpen = s.portOpen := rfl
@[simp] theorem State.writeImage_rdBudget (s : State) (f : Frame) (img : Bytes) : (s.writeImage f img).rdBudget = s.rdBudget := rfl
@[simp] theorem State.writeImage_rdGranule (s : State) (f : Frame) (img : Bytes) : (s.writeImage f img).rdGranule = s.rdGranule := rfl
@[simp] theorem State.writeImage_hostRead (s : State) (f : Frame) (img : Bytes) : (s.writeImage f img).hostRead = s.hostRead := rfl
@[simp] theorem State.writeImage_user (s : State) (f : Frame) (img : Bytes) : (s.writeImage f img).user = s.user := rfl
@[simp] theorem State.writeImage_maxRetry (s : State) (f : Frame) (img : Bytes) : (s.writeImage f img).maxRetry = s.maxRetry := rfl
@[simp] theorem State.writeImage_retryWait (s : State) (f : Frame) (img : Bytes) : (s.writeImage f img).retryWait = s.retryWait := rfl
@[simp] theorem State.writeImage_pollInt (s : State) (f : Frame) (img : Bytes) : (s.writeImage f img).pollInt = s.pollInt := rfl
@[simp] theorem State.writeImage_sinkMask (s : State) (f : Frame) (img : Bytes) : (s.writeImage f img).sinkMask = s.sinkMask := rfl
@[simp] theorem State.writeImage_ufc (s : State) (f : Frame) (img : Bytes) : (s.writeImage f img).ufc = s.ufc := rfl
@[simp] theorem State.writeImage_retry (s : State) (f : Frame) (img : Bytes) : (s.writeImage f img).retry = s.retry := rfl
@[simp] theorem State.writeImage_attempts (s : State) (f : Frame) (img : Bytes) : (s.writeImage f img).attempts = s.attempts := rfl
@[simp] theorem State.writeImage_burst (s : State) (f : Frame) (img : Bytes) : (s.writeImage f img).burst = s.burst := rfl
@[simp] theorem State.writeImage_p4Try (s : State) (f : Frame) (img : Bytes) : (s.writeImage f img).p4Try = s.p4Try := rfl
@[simp] theorem State.writeImage_cycle (s : State) (f : Frame) (img : Bytes) : (s.writeImage f img).cycle = s.cycle := rfl
@[simp] theorem State.writeImage_probeHdr (s : State) (f : Frame) (img : Bytes) : (s.writeImage f img).probeHdr = s.probeHdr := rfl
@[simp] theorem State.writeImage_lastHdr (s : State) (f : Frame) (img : Bytes) : (s.writeImage f img).lastHdr = s.lastHdr := rfl
@[simp] theorem State.writeImage_toggle (s : State) (f : Frame) (img : Bytes) : (s.writeImage f img).toggle = s.toggle := rfl
@[simp] theorem State.writeImage_ts (s : State) (f : Frame) (img : Bytes) : (s.writeImage f img).ts = s.ts := rfl
@[simp] theorem State.writeImage_stopPending (s : State) (f : Frame) (img : Bytes) : (s.writeImage f img).stopPending = s.stopPending := rfl
@[simp] theorem State.writeImage_err (s : State) (f : Frame) (img : Bytes) : (s.writeImage f img).err = s.err := rfl
@[simp] theorem State.writeImage_responses (s : State) (f : Frame) (img : Bytes) : (s.writeImage f img).responses = s.responses := rfl
@[simp] theorem State.writeImage_tx (s : State) (f : Frame) (img : Bytes) : (s.writeImage f img).tx = s.tx ++ outbound img := rfl
@[simp] theorem State.writeImage_sinks (s : State) (f : Frame) (img : Bytes) : (s.writeImage f img).sinks = s.sinks := rfl
@[simp] theorem State.writeImage_log (s : State) (f : Frame) (img : Bytes) : (s.writeImage f img).log = s.log ++ f.rawEvents := rfl
@[simp] theorem State.writeImage_rxPending (s : State) (f : Frame) (img : Bytes) : (s.writeImage f img).rxPending = s.rxPending := rfl
@[simp] theorem State.writeImage_inputs (s : State) (f : Frame) (img : Bytes) : (s.writeImage f img).inputs = s.inputs := rfl
@[simp] theorem State.writeImage_clockReads (s : State) (f : Frame) (img : Bytes) : (s.writeImage f img).clockReads = s.clockReads := rfl

/-! ### takeAssembly -/

@[simp] theorem State.takeAssembly_txf (s : State) (a : Assembly) : (s.takeAssembly a).txf = s.txf := rfl
@[simp] theorem State.takeAssembly_rxf (s : State) (a : Assembly) : (s.takeAssembly a).rxf = a.frame := rfl
@[simp] theorem State.takeAssembly_rxbuf (s : State) (a : Assembly) : (s.takeAssembly a).rxbuf = s.rxbuf := rfl
@[simp] theorem State.takeAssembly_rxbufN (s : State) (a : Assembly) : (s.takeAssembly a).rxbufN = s.rxbufN := rfl
@[simp] theorem State.takeAssembly_stage (s : State) (a : Assembly) : (s.takeAssembly a).stage = s.stage := rfl
@[simp] theorem State.takeAssembly_upc (s : State) (a : Assembly) : (s.takeAssembly a).upc = s.upc := rfl
@[simp] theorem State.takeAssembly_portOpen (s : State) (a : Assembly) : (s.takeAssembly a).portOpen = s.portOpen := rfl
@[simp] theorem State.takeAssembly_rdBudget (s : State) (a : Assembly) : (s.takeAssembly a).rdBudget = s.rdBudget := rfl
@[simp] theorem State.takeAssembly_rdGranule (s : State) (a : Assembly) : (s.takeAssembly a).rdGranule = s.rdGranule := rfl
@[simp] theorem State.takeAssembly_hostRead (s : State) (a : Assembly) : (s.takeAssembly a).hostRead = s.hostRead := rfl
@[simp] theorem State.takeAssembly_user (s : State) (a : Assembly) : (s.takeAssembly a).user = s.user := rfl
@[simp] theorem State.takeAssembly_maxRetry (s : State) (a : Assembly) : (s.takeAssembly a).maxRetry = s.maxRetry := rfl
@[simp] theorem State.takeAssembly_retryWait (s : State) (a : Assembly) : (s.takeAssembly a).retryWait = s.retryWait := rfl
@[simp] theorem State.takeAssembly_pollInt (s : State) (a : Assembly) : (s.takeAssembly a).pollInt = s.pollInt := rfl
@[simp] theorem State.takeAssembly_sinkMask (s : State) (a : Assembly) : (s.takeAssembly a).sinkMask = s.sinkMask := rfl
@[simp] theorem State.takeAssembly_ufc (s : State) (a : Assembly) : (s.takeAssembly a).ufc = s.ufc := rfl
@[simp] theorem State.takeAssembly_retry (s : State) (a : Assembly) : (s.takeAssembly a).retry = s.retry := rfl
@[simp] theorem State.takeAssembly_attempts (s : State) (a : Assembly) : (s.takeAssembly a).attempts = s.attempts := rfl
@[simp] theorem State.takeAssembly_burst (s : State) (a : Assembly) : (s.takeAssembly a).burst = s.burst := rfl
@[simp] theorem State.takeAssembly_p4Try (s : State) (a : Assembly) : (s.takeAssembly a).p4Try = s.p4Try := rfl
@[simp] theorem State.takeAssembly_cycle (s : State) (a : Assembly) : (s.takeAssembly a).cycle = s.cycle := rfl
@[simp] theorem State.takeAssembly_probeHdr (s : State) (a : Assembly) : (s.takeAssembly a).probeHdr = s.probeHdr := rfl
@[simp] theorem State.takeAssembly_lastHdr (s : State) (a : Assembly) : (s.takeAssembly a).lastHdr = s.lastHdr := rfl
@[simp] theorem State.takeAssembly_toggle (s : State) (a : Assembly) : (s.takeAssembly a).toggle = s.toggle := rfl
@[simp] theorem State.takeAssembly_ts (s : State) (a : Assembly) : (s.takeAssembly a).ts = s.ts := rfl
@[simp] theorem State.takeAssembly_stopPending (s : State) (a : Assembly) : (s.takeAssembly a).stopPending = s.stopPending := rfl
@[simp] theorem State.takeAssembly_err (s : State) (a : Assembly) : (s.takeAssembly a).err = s.err := rfl
@[simp] theorem State.takeAssembly_responses (s : State) (a : Assembly) : (s.takeAssembly a).responses = s.responses := rfl
@[simp] theorem State.takeAssembly_tx (s : State) (a : Assembly) : (s.takeAssembly a).tx = s.tx := rfl
@[simp] theorem State.takeAssembly_sinks (s : State) (a : Assembly) : (s.takeAssembly a).sinks = s.sinks := rfl
@[simp] theorem State.takeAssembly_log (s : State) (a : Assembly) : (s.takeAssembly a).log = s.log ++ a.events := rfl
@[simp] theorem State.takeAssembly_rxPending (s : State) (a : Assembly) : (s.takeAssembly a).rxPending = s.rxPending := rfl
@[simp] theorem State.takeAssembly_inputs (s : State) (a : Assembly) : (s.takeAssembly a).inputs = s.inputs := rfl
@[simp] theorem State.takeAssembly_clockReads (s : State) (a : Assembly) : (s.takeAssembly a).clockReads = s.clockReads := rfl

/-! ### openLine -/

@[simp] theorem State.openLine_txf (s : State) : s.openLine.txf = s.txf := by unfold State.openLine; split <;> simp_all
@[simp] theorem State.openLine_rxf (s : State) : s.openLine.rxf = s.rxf := by unfold State.openLine; split <;> simp_all
@[simp] theorem State.openLine_rxbuf (s : State) : s.openLine.rxbuf = s.rxbuf := by unfold State.openLine; split <;> simp_all
@[simp] theorem State.openLine_rxbufN (s : State) : s.openLine.rxbufN = s.rxbufN := by unfold State.openLine; split <;> simp_all
@[simp] theorem State.openLine_stage (s : State) : s.openLine.stage = s.stage := by unfold State.openLine; split <;> simp_all
@[simp] theorem State.openLine_upc (s : State) : s.openLine.upc = s.upc := by unfold State.openLine; split <;> simp_all
@[simp] theorem State.openLine_portOpen (s : State) : s.openLine.portOpen = true := by unfold State.openLine; split <;> simp_all
@[simp] theorem State.openLine_rdBudget (s : State) : s.openLine.rdBudget = s.rdBudget := by unfold State.openLine; split <;> simp_all
@[simp] theorem State.openLine_rdGranule (s : State) : s.openLine.rdGranule = s.rdGranule := by unfold State.openLine; split <;> simp_all
@[simp] theorem State.openLine_hostRead (s : State) : s.openLine.hostRead = s.hostRead := by unfold State.openLine; split <;> simp_all
@[simp] theorem State.openLine_user (s : State) : s.openLine.user = s.user := by unfold State.openLine; split <;> simp_all
@[simp] theorem State.openLine_maxRetry (s : State) : s.openLine.maxRetry = s.maxRetry := by unfold State.openLine; split <;> simp_all
@[simp] theorem State.openLine_retryWait (s : State) : s.openLine.retryWait = s.retryWait := by unfold State.openLine; split <;> simp_all
@[simp] theorem State.openLine_pollInt (s : State) : s.openLine.pollInt = s.pollInt := by unfold State.openLine; split <;> simp_all
@[simp] theorem State.openLine_sinkMask (s : State) : s.openLine.sinkMask = s.sinkMask := by unfold State.openLine; split <;> simp_all
@[simp] theorem State.openLine_ufc (s : State) : s.openLine.ufc = s.ufc := by unfold State.openLine; split <;> simp_all
@[simp] theorem State.openLine_retry (s : State) : s.openLine.retry = s.retry := by unfold State.openLine; split <;> simp_all
@[simp] theorem State.openLine_attempts (s : State) : s.openLine.attempts = s.attempts := by unfold State.openLine; split <;> simp_all
@[simp] theorem State.openLine_burst (s : State) : s.openLine.burst = s.burst := by unfold State.openLine; split <;> simp_all
@[simp] theorem State.openLine_p4Try (s : State) : s.openLine.p4Try = s.p4Try := by unfold State.openLine; split <;> simp_all
@[simp] theorem State.openLine_cycle (s : State) : s.openLine.cycle = s.cycle := by unfold State.openLine; split <;> simp_all
@[simp] theorem State.openLine_probeHdr (s : State) : s.openLine.probeHdr = s.probeHdr := by unfold State.openLine; split <;> simp_all
@[simp] theorem State.openLine_lastHdr (s : State) : s.openLine.lastHdr = s.lastHdr := by unfold State.openLine; split <;> simp_all
@[simp] theorem State.openLine_toggle (s : State) : s.openLine.toggle = s.toggle := by unfold State.openLine; split <;> simp_all
@[simp] theorem State.openLine_ts (s : State) : s.openLine.ts = s.ts := by unfold State.openLine; split <;> simp_all
@[simp] theorem State.openLine_stopPending (s : State) : s.openLine.stopPending = s.stopPending := by unfold State.openLine; split <;> simp_all
@[simp] theorem State.openLine_err (s : State) : s.openLine.err = s.err := by unfold State.openLine; split <;> simp_all
@[simp] theorem State.openLine_responses (s : State) : s.openLine.responses = s.responses := by unfold State.openLine; split <;> simp_all
@[simp] theorem State.openLine_tx (s : State) : s.openLine.tx = s.tx := by unfold State.openLine; split <;> simp_all
@[simp] theorem State.openLine_sinks (s : State) : s.openLine.sinks = s.sinks := by unfold State.openLine; split <;> simp_all
@[simp] theorem State.openLine_log (s : State) : s.openLine.log = s.log := by unfold State.openLine; split <;> simp_all
@[simp] theorem State.openLine_rxPending (s : State) : s.openLine.rxPending = if s.portOpen then s.rxPending else [] := by unfold State.openLine; split <;> simp_all
@[simp] theorem State.openLine_inputs (s : State) : s.openLine.inputs = s.inputs := by unfold State.openLine; split <;> simp_all
@[simp] theorem State.openLine_clockReads (s : State) : s.openLine.clockReads = s.clockReads := by unfold State.openLine; split <;> simp_all

/-! ### setFrame -/

@[simp] theorem State.setFrame_rxbuf (s : State) (fs : FrameSel) (f : Frame) : (s.setFrame fs f).rxbuf = s.rxbuf := by cases fs <;> rfl
@[simp] theorem State.setFrame_rxbufN (s : State) (fs : FrameSel) (f : Frame) : (s.setFrame fs f).rxbufN = s.rxbufN := by cases fs <;> rfl
@[simp] theorem State.setFrame_stage (s : State) (fs : FrameSel) (f : Frame) : (s.setFrame fs f).stage = s.stage := by cases fs <;> rfl
@[simp] theorem State.setFrame_upc (s : State) (fs : FrameSel) (f : Frame) : (s.setFrame fs f).upc = s.upc := by cases fs <;> rfl
@[simp] theorem State.setFrame_portOpen (s : State) (fs : FrameSel) (f : Frame) : (s.setFrame fs f).portOpen = s.portOpen := by cases fs <;> rfl
@[simp] theorem State.setFrame_rdBudget (s : State) (fs : FrameSel) (f : Frame) : (s.setFrame fs f).rdBudget = s.rdBudget := by cases fs <;> rfl
@[simp] theorem State.setFrame_rdGranule (s : State) (fs : FrameSel) (f : Frame) : (s.setFrame fs f).rdGranule = s.rdGranule := by cases fs <;> rfl
@[simp] theorem State.setFrame_hostRead (s : State) (fs : FrameSel) (f : Frame) : (s.setFrame fs f).hostRead = s.hostRead := by cases fs <;> rfl
@[simp] theorem State.setFrame_user (s : State) (fs : FrameSel) (f : Frame) : (s.setFrame fs f).user = s.user := by cases fs <;> rfl
@[simp] theorem State.setFrame_maxRetry (s : State) (fs : FrameSel) (f : Frame) : (s.setFrame fs f).maxRetry = s.maxRetry := by cases fs <;> rfl
@[simp] theorem State.setFrame_retryWait (s : State) (fs : FrameSel) (f : Frame) : (s.setFrame fs f).retryWait = s.retryWait := by cases fs <;> rfl
@[simp] theorem State.setFrame_pollInt (s : State) (fs : FrameSel) (f : Frame) : (s.setFrame fs f).pollInt = s.pollInt := by cases fs <;> rfl
@[simp] theorem State.setFrame_sinkMask (s : State) (fs : FrameSel) (f : Frame) : (s.setFrame fs f).sinkMask = s.sinkMask := by cases fs <;> rfl
@[simp] theorem State.setFrame_ufc (s : State) (fs : FrameSel) (f : Frame) : (s.setFrame fs f).ufc = s.ufc := by cases fs <;> rfl
@[simp] theorem State.setFrame_retry (s : State) (fs : FrameSel) (f : Frame) : (s.setFrame fs f).retry = s.retry := by cases fs <;> rfl
@[simp] theorem State.setFrame_attempts (s : State) (fs : FrameSel) (f : Frame) : (s.setFrame fs f).attempts = s.attempts := by cases fs <;> rfl
@[simp] theorem State.setFrame_burst (s : State) (fs : FrameSel) (f : Frame) : (s.setFrame fs f).burst = s.burst := by cases fs <;> rfl
@[simp] theorem State.setFrame_p4Try (s : State) (fs : FrameSel) (f : Frame) : (s.setFrame fs f).p4Try = s.p4Try := by cases fs <;> rfl
@[simp] theorem State.setFrame_cycle (s : State) (fs : FrameSel) (f : Frame) : (s.setFrame fs f).cycle = s.cycle := by cases fs <;> rfl
@[simp] theorem State.setFrame_probeHdr (s : State) (fs : FrameSel) (f : Frame) : (s.setFrame fs f).probeHdr = s.probeHdr := by cases fs <;> rfl
@[simp] theorem State.setFrame_lastHdr (s : State) (fs : FrameSel) (f : Frame) : (s.setFrame fs f).lastHdr = s.lastHdr := by cases fs <;> rfl
@[simp] theorem State.setFrame_toggle (s : State) (fs : FrameSel) (f : Frame) : (s.setFrame fs f).toggle = s.toggle := by cases fs <;> rfl
@[simp] theorem State.setFrame_ts (s : State) (fs : FrameSel) (f : Frame) : (s.setFrame fs f).ts = s.ts := by cases fs <;> rfl
@[simp] theorem State.setFrame_stopPending (s : State) (fs : FrameSel) (f : Frame) : (s.setFrame fs f).stopPending = s.stopPending := by cases fs <;> rfl
@[simp] theorem State.setFrame_err (s : State) (fs : FrameSel) (f : Frame) : (s.setFrame fs f).err = s.err := by cases fs <;> rfl
@[simp] theorem State.setFrame_responses (s : State) (fs : FrameSel) (f : Frame) : (s.setFrame fs f).responses = s.responses := by cases fs <;> rfl
@[simp] theorem State.setFrame_tx (s : State) (fs : FrameSel) (f : Frame) : (s.setFrame fs f).tx = s.tx := by cases fs <;> rfl
@[simp] theorem State.setFrame_sinks (s : State) (fs : FrameSel) (f : Frame) : (s.setFrame fs f).sinks = s.sinks := by cases fs <;> rfl
@[simp] theorem State.setFrame_log (s : State) (fs : FrameSel) (f : Frame) : (s.setFrame fs f).log = s.log := by cases fs <;> rfl
@[simp] theorem State.setFrame_rxPending (s : State) (fs : FrameSel) (f : Frame) : (s.setFrame fs f).rxPending = s.rxPending := by cases fs <;> rfl
@[simp] theorem State.setFrame_inputs (s : State) (fs : FrameSel) (f : Frame) : (s.setFrame fs f).inputs = s.inputs := by cases fs <;> rfl
@[simp] theorem State.setFrame_clockReads (s : State) (fs : FrameSel) (f : Frame) : (s.setFrame fs f).clockReads = s.clockReads := by cases fs <;> rfl

@[simp] theorem State.frame_setFrame_same (s : State) (fs : FrameSel) (f : Frame) : (s.setFrame fs f).frame fs = f := by
  cases fs <;> rfl

theorem State.frame_setFrame_other (s : State) (fs gs : FrameSel) (f : Frame) (h : gs ≠ fs) :
    (s.setFrame fs f).frame gs = s.frame gs := by
  cases fs <;> cases gs <;> first | rfl | exact absurd rfl h

@[simp] theorem State.logEvents_nil (s : State) : s.logEvents [] = s := by
  simp [State.logEvents]

@[simp] theorem State.emit_nil (s : State) : s.emit [] = s := by
  simp [State.emit]

@[simp] theorem State.frame_respond (s : State) (r : Response) (fs : FrameSel) : (s.respond r).frame fs = s.frame fs := by
  cases fs <;> rfl

@[simp] theorem State.frame_logEvents (s : State) (es : List LogEvent) (fs : FrameSel) :
    (s.logEvents es).frame fs = s.frame fs := by
  cases fs <;> rfl

end Sys2Proof.Machine
end

