-- ==== Sys2Proof/Laws/Ops.lean ====
section
/-!
SUPPORT. For each shared operation, once, what it can do: the gates of the meanings, `SEND`, `READ`, the terminal error,
`STOP`, and the parts a step is made of.
-/

namespace Sys2Proof.Machine

/-! ### The gates of the meanings -/

theorem State.direct_idle {s : State} {k : Result} (h : s.busy = false) : s.direct k = k := by
  simp [State.direct, h]

theorem State.direct_busy {s : State} {k : Result} (h : s.busy = true) : s.direct k = .next (s.respond .refused) := by
  simp [State.direct, h]

theorem State.direct_cases {s t u : State} (h : s.direct (.next u) = .next t) :
    (s.busy = true ∧ t = s.respond .refused) ∨ (s.busy = false ∧ t = u) := by
  cases hb : s.busy
  · rw [State.direct_idle hb] at h
    exact .inr ⟨rfl, by injection h with h; exact h.symm⟩
  · rw [State.direct_busy hb] at h
    exact .inl ⟨rfl, by injection h with h; exact h.symm⟩

theorem State.onOpenPort_cases {s k t : State} (h : s.onOpenPort k = .next t) : s.portOpen = true ∧ t = k := by
  unfold State.onOpenPort at h
  split at h
  · rename_i hp
    exact ⟨hp, by injection h with h; exact h.symm⟩
  · cases h

theorem State.onOpenPort_open {s k : State} (h : s.portOpen = true) : s.onOpenPort k = .next k := by
  simp [State.onOpenPort, h]

theorem atPosition_of {i : Instr} {s : State} {k : Result} (h : fetchWire s = some i) : atPosition i s k = k := by
  simp [atPosition, h]

theorem atPosition_cases {i : Instr} {s t : State} {k : Result} (h : atPosition i s k = .next t) :
    fetchWire s = some i ∧ k = .next t := by
  unfold atPosition at h
  split at h
  · rename_i hf
    exact ⟨hf, h⟩
  · cases h

theorem State.busy_false {s : State} : s.busy = false ↔ isRunning s.upc = false ∧ s.hostRead = false := by
  simp [State.busy]

/-! ### `SEND` (30_encoding.md R106) -/

/-- The frame `SEND h, d` builds (40_codec.md R130). -/
theorem sendFrame_eq (h d : Bytes) :
    sendFrame h d =
      { hdr := some h, size := some (BitVec.ofNat 8 d.length), data := some d,
        csum := some (checksum h (BitVec.ofNat 8 d.length) d), csumExt := false, valid := validPrepared h } := rfl

theorem sendFrame_image (h d : Bytes) :
    (sendFrame h d).image =
      some (h ++ BitVec.ofNat 8 d.length :: (d ++ be16 (checksum h (BitVec.ofNat 8 d.length) d))) := rfl

theorem sendFrame_verifies (h d : Bytes) : (sendFrame h d).verifies = true := by
  simp [sendFrame_eq, Frame.verifies, Frame.csOf]

/-- The only warning a sent frame can log is that its header has not two bytes (70_reset_and_hazards.md R318). -/
theorem sendFrame_events (h d : Bytes) :
    (sendFrame h d).rawEvents = if h.length = 2 then [] else [.wRawInvalid] := by
  simp only [Frame.rawEvents, Frame.rawInvalid, Frame.rawReverify, sendFrame_verifies]
  by_cases hh : h.length = 2 <;> simp [sendFrame_eq, validPrepared, Config.hdrLen, hh]

/-- `SEND h, d` writes `TXF`, the line and the log, and nothing else. -/
theorem State.send_eq (s : State) (h d : Bytes) :
    s.send h d =
      { s with
        txf := sendFrame h d
        tx := s.tx ++ outbound (h ++ BitVec.ofNat 8 d.length :: (d ++ be16 (checksum h (BitVec.ofNat 8 d.length) d)))
        log := s.log ++ (if h.length = 2 then [] else [.wRawInvalid]) } := by
  rw [← sendFrame_events h d]
  rfl

/-! ### `READ` (41_transport.md R162 to R164) -/

theorem State.readBurst_eq (s : State) (b : Burst) :
    s.readBurst b =
      ({ s with
          rxf := (assemble (b.bytes.take Config.rxbufCap)).frame
          rxbuf := Memory.store [] 0 (b.bytes.take Config.rxbufCap)
          rxbufN := (b.bytes.take Config.rxbufCap).length
          log := s.log ++ (assemble (b.bytes.take Config.rxbufCap)).events },
        (assemble (b.bytes.take Config.rxbufCap)).result) := by
  simp only [State.readBurst, State.bufferBytes_fillBuffer]
  rfl

theorem State.readLine_silence {s : State} (h : s.rxPending = []) :
    s.readLine = ({ s with rxf := .fresh, rxbuf := [], rxbufN := 0 }, .err .globalTimeout) := by
  have e : s.readLine = s.readSilence := by
    unfold State.readLine
    split
    · rename_i hb
      rw [h] at hb
      cases hb
    · rfl
  rw [e]
  rfl

theorem State.readLine_burst {s : State} {b : Burst} {rest : List Burst} (h : s.rxPending = b :: rest) :
    s.readLine =
      ({ s with
          rxPending := rest
          rxf := (assemble (b.bytes.take Config.rxbufCap)).frame
          rxbuf := Memory.store [] 0 (b.bytes.take Config.rxbufCap)
          rxbufN := (b.bytes.take Config.rxbufCap).length
          log := s.log ++ (assemble (b.bytes.take Config.rxbufCap)).events },
        (assemble (b.bytes.take Config.rxbufCap)).result) := by
  simp only [State.readLine, h, State.readBurst_eq]

/-- `READ` writes `RXF`, `RXBUF`, the unread bursts and the log, and nothing else. -/
theorem State.readLine_frame (s : State) :
    ∃ f m n es, s.readLine.1 =
      { s with rxf := f, rxbuf := m, rxbufN := n, rxPending := s.rxPending.tail, log := s.log ++ es } := by
  cases h : s.rxPending with
  | nil => exact ⟨.fresh, [], 0, [], by rw [State.readLine_silence h]; simp [h]⟩
  | cons b rest => exact ⟨_, _, _, _, by rw [State.readLine_burst h]; rfl⟩

/-- The result of `READ` is code 9 only for silence: one received byte is enough for another (41_transport.md R164). -/
theorem assemble_not_timeout (b : Bytes) : (assemble b).result ≠ .err .globalTimeout := by
  simp only [assemble, assembleChecksum]
  repeat' split
  all_goals simp

theorem Frame.withData_hdr (f : Frame) (d : Bytes) : (f.withData d).hdr = f.hdr := by
  unfold Frame.withData
  split <;> rfl

theorem Frame.supply_done {f g : Frame} {v : Bool} {c : Word16} {es : List LogEvent} (h : f.supply v c = .done g es) :
    g.hdr = f.hdr ∧ g.size = f.size ∧ g.data = f.data ∧ g.csum = some c ∧ g.csumExt = true := by
  unfold Frame.supply at h
  split at h
  · cases h
  · split at h <;> cases h <;> simp [Frame.withSupplied]

theorem assembleChecksum_hdr (f : Frame) (c : Word16) : (assembleChecksum f c).frame.hdr = f.hdr := by
  unfold assembleChecksum
  split
  · rename_i g es h
    have := (Frame.supply_done h).1
    split <;> simpa using this
  · rfl

/-- Every burst sets the header of `RXF` to its first one or two bytes (42_sequencer.md R197). -/
theorem assemble_hdr (b : Bytes) : (assemble b).frame.hdr = some (b.take 2) := by
  simp only [assemble]
  repeat' split
  all_goals simp [assembleChecksum_hdr, Frame.withData_hdr, Frame.withSize, Frame.withHeader]

/-! ### The terminal error and `STOP` (60_exceptions.md R274, 42_sequencer.md R230) -/

theorem State.raiseTerminal_eq (s : State) (k : ErrKind) (n : Word32) (c : Option CommCode) (r : Response) :
    s.raiseTerminal k n c r =
      { s with
        err := ⟨k, s.stage, n, c⟩
        upc := .halt
        log := s.log ++ [.eTerminal]
        responses := s.responses ++ [r] } := rfl

theorem State.takeStop_eq (s : State) :
    s.takeStop =
      { s with
        stage := .preinit
        upc := .idle
        portOpen := false
        rxPending := []
        stopPending := false
        responses := s.responses ++ (if isRunning s.upc then [.ok .empty, .ok .empty] else [.ok .empty]) } := by
  unfold State.takeStop
  split <;> simp [State.closeLine, State.respondOk, State.respond]

/-! ### The parts of a step -/

theorem settle_next {o : Result} {t : State} (h : settle o = .next t) :
    (∃ u, o = .next u ∧ t = u.takeStop ∧ u.stopPending = true ∧ u.readInFlight = false) ∨ o = .next t := by
  cases o with
  | next u =>
    simp only [settle] at h
    split at h
    · rename_i hc
      simp only [Bool.and_eq_true, Bool.not_eq_true'] at hc
      exact .inl ⟨u, rfl, by injection h with h; exact h.symm, hc.1, hc.2⟩
    · exact .inr h
  | fault r => cases h
  | refused r => cases h

theorem settle_of_noStop {u : State} (h : u.stopPending = false) : settle (.next u) = .next u := by
  simp [settle, h]

/-- What a step can be: reset, a host command, an arrival, or the block's own micro-step with or without a spent event. -/
theorem step_cases (s : State) :
    (∃ rest, s.inputs = .reset :: rest ∧ step s = .next (hardReset rest s)) ∨
    (∃ c rest, s.inputs = .host c :: rest ∧ s.readReady = false ∧ step s = hostStep c { s with inputs := rest }) ∨
    (∃ b rest, s.inputs = .burst b :: rest ∧ s.readReady = false ∧
      step s = .next ({ s with inputs := rest }.arrive b)) ∨
    (∃ rest, s.inputs = .elapse :: rest ∧ s.readReady = false ∧
      step s = settle (ownStep { s with inputs := rest })) ∨
    ((s.readReady = true ∨ s.inputs = []) ∧ step s = settle (ownStep s)) := by
  unfold step
  cases hr : s.readReady <;> split <;> rename_i hi <;> simp [hi]

end Sys2Proof.Machine
end

