-- ==== Sys2Proof/Laws/Step.lean ====
section
/-!
SUPPORT. Everything a step can do, said once: the moves of the block's own micro-step and of a host command, each with the
conditions under which it is made. Statements about all steps are case analyses over these.
-/

namespace Sys2Proof.Machine

/-! ### The block's own micro-step -/

/-- What is done with a reply in X_READ: nothing, the clock decode, or the telemetry routing (42_sequencer.md R218 to
R220). -/
def ReplyProcess (f : State → State) : Prop :=
  f = id ∨ f = State.decodeClock Config.toEpoch ∨ f = State.routeTelemetry Config.decodeFields

/-- The moves of `ownStep`. -/
inductive OwnMove (s : State) : State → Prop
  | hostRead : s.hostRead = true → OwnMove s s.finishHostRead
  | rest : s.hostRead = false → s.upc = .idle ∨ s.upc = .halt → OwnMove s s
  | authSend (d : Bytes) : d.length = 3 → s.hostRead = false → s.upc = .authSend → s.portOpen = true →
      OwnMove s (s.send [0x52, 0x61] d).afterAuthSend
  | authRead : s.hostRead = false → s.upc = .authRead → s.portOpen = true → OwnMove s (authReadStep s)
  | authSleep : s.hostRead = false → s.upc = .authSleep → OwnMove s (authSleepDone s)
  | p1Send : s.hostRead = false → s.upc = .p1Send → s.portOpen = true →
      OwnMove s (s.send s.probeHdr.bytes [0x01]).afterP1Send
  | p1Read : s.hostRead = false → s.upc = .p1Read → s.portOpen = true → OwnMove s (p1ReadStep s)
  | p2Send : s.hostRead = false → s.upc = .p2Send → s.portOpen = true →
      OwnMove s (s.send [0x4D, 0x32] [0x01]).afterP2Send
  | p2CheckNone : s.hostRead = false → s.upc = .p2Check → s.rxPending = [] → OwnMove s { s with upc := .p2Wait }
  | p2CheckRead : s.hostRead = false → s.upc = .p2Check → s.rxPending ≠ [] → s.portOpen = true →
      OwnMove s (p2CheckRead s)
  | p2Wait : s.hostRead = false → s.upc = .p2Wait → OwnMove s (p2WaitDone s)
  | p3Send : s.hostRead = false → s.upc = .p3Send → s.portOpen = true →
      OwnMove s { (s.send [0x52, 0x62] [0x00, 0x00, 0x01]).countAttempt with upc := .p3Read }
  | p3Read : s.hostRead = false → s.upc = .p3Read → s.portOpen = true → OwnMove s (p3ReadStep s)
  | p4Wait : s.hostRead = false → s.upc = .p4Wait → OwnMove s (p4WaitDone s)
  | p4Send : s.hostRead = false → s.upc = .p4Send → s.portOpen = true →
      OwnMove s (s.send [0x4D, 0x32] [0x01]).afterP4Send
  | p4Read : s.hostRead = false → s.upc = .p4Read → s.portOpen = true → OwnMove s (p4ReadStep s)
  | xSend (h : Bytes) (toggle : Bool) : h.length = 2 → s.hostRead = false → s.upc = .xSend → s.portOpen = true →
      OwnMove s { (s.send h [0x01]).countAttempt with toggle := toggle, upc := .xRead }
  | xRead (f : State → State) : ReplyProcess f → s.hostRead = false → s.upc = .xRead → s.portOpen = true →
      OwnMove s (xReadStep f s)
  | xSleep : s.hostRead = false → s.upc = .xSleep → OwnMove s (xSleepDone s)

theorem onOpen_move {s k t : State} (h : s.onOpenPort k = .next t) (hm : s.portOpen = true → OwnMove s k) :
    OwnMove s t := by
  obtain ⟨hp, rfl⟩ := State.onOpenPort_cases h
  exact hm hp

theorem fetchWire_send {s : State} {i : Instr} (h : fetchRequest s = some i) : fetchWire s = some i := by
  simp [fetchWire, h]

theorem fetchWire_reply {s : State} (h : fetchRequest s = none) : fetchWire s = fetchReply s := by
  simp [fetchWire, h]

/-- The reply rows a waiting burst can be, by position. -/
theorem fetchReply_cases {s : State} {i : Instr} (h : fetchReply s = some i) :
    (s.upc = .authRead ∧ ((∃ p q, i = .rspAuth p q) ∨ ∃ p q, i = .rspOther p q)) ∨
    (s.upc = .p1Read ∧ ((∃ d, i = .rspMDigit d) ∨ ∃ p q, i = .rspOther p q)) ∨
    ((s.upc = .p2Check ∨ s.upc = .p3Read ∨ s.upc = .p4Read) ∧ ∃ p q, i = .rspOther p q) ∨
    (s.upc = .xRead ∧ (i = .rspM1 ∨ i = .rspM2 ∨ i = .rspM3 ∨ ∃ p q, i = .rspOther p q)) := by
  simp only [fetchReply] at h
  split at h
  · rename_i b rest hb
    split at h
    · rename_i q r hr
      cases hu : s.upc <;> rw [hu] at h <;> simp only [decodeReply, Except.toOption, Option.some.injEq, reduceCtorEq] at h
      · refine .inl ⟨rfl, ?_⟩
        split at h
        · exact .inl ⟨_, _, h.symm⟩
        · exact .inr ⟨_, _, h.symm⟩
      · refine .inr (.inl ⟨rfl, ?_⟩)
        split at h
        · exact .inl ⟨_, h.symm⟩
        · exact .inr ⟨_, _, h.symm⟩
      · exact .inr (.inr (.inl ⟨.inl rfl, _, _, h.symm⟩))
      · exact .inr (.inr (.inl ⟨.inr (.inl rfl), _, _, h.symm⟩))
      · exact .inr (.inr (.inl ⟨.inr (.inr rfl), _, _, h.symm⟩))
      · refine .inr (.inr (.inr ⟨rfl, ?_⟩))
        unfold classifyExchange at h
        split at h
        · exact .inl h.symm
        · split at h
          · exact .inr (.inl h.symm)
          · split at h
            · exact .inr (.inr (.inl h.symm))
            · exact .inr (.inr (.inr ⟨_, _, h.symm⟩))
    · cases h
  · cases h

theorem fetchReply_pending {s : State} {i : Instr} (h : fetchReply s = some i) : s.rxPending ≠ [] := by
  simp only [fetchReply] at h
  split at h
  · rename_i hb
    simp [hb]
  · cases h

/-- Everything the block's own micro-step can do. -/
theorem ownStep_move {s t : State} (h : ownStep s = .next t) : OwnMove s t := by
  unfold ownStep at h
  cases hr : s.hostRead
  · simp only [hr, Bool.false_eq_true, if_false] at h
    cases hq : fetchRequest s with
    | some i =>
      rw [fetchWire_send hq] at h
      have hf := fetchWire_send hq
      revert hq
      cases hu : s.upc <;> simp only [fetchRequest, hu, Option.some.injEq, reduceCtorEq, false_implies] <;> intro hq
      · cases hus : s.user <;> simp only [hus, authRequest] at hq <;> subst hq <;>
          exact onOpen_move (atPosition_cases h).2 (OwnMove.authSend _ rfl hr hu)
      · have hm := OwnMove.p1Send hr hu
        unfold probe at hq
        split at hq
        · rename_i he
          subst hq
          rw [he] at hm
          exact onOpen_move (atPosition_cases h).2 hm
        · subst hq
          exact onOpen_move (atPosition_cases h).2 hm
      · subst hq
        have h2 := (atPosition_cases h).2
        simp only [hu, if_true] at h2
        exact onOpen_move h2 (OwnMove.p2Send hr hu)
      · subst hq
        exact onOpen_move (atPosition_cases h).2 (OwnMove.p3Send hr hu)
      · subst hq
        have h2 := (atPosition_cases h).2
        simp only [hu, reduceCtorEq, if_false] at h2
        exact onOpen_move h2 (OwnMove.p4Send hr hu)
      · unfold exchangeRequest at hq
        split at hq
        · subst hq
          exact onOpen_move (atPosition_cases h).2 (OwnMove.xSend _ s.toggle rfl hr hu)
        · split at hq <;> subst hq <;>
            exact onOpen_move (atPosition_cases h).2 (OwnMove.xSend _ _ rfl hr hu)
    | none =>
      rw [fetchWire_reply hq] at h
      cases hp : fetchReply s with
      | some i =>
        rw [hp] at h
        have hne := fetchReply_pending hp
        rcases fetchReply_cases hp with ⟨hu, ⟨p, q, rfl⟩ | ⟨p, q, rfl⟩⟩ | ⟨hu, ⟨d, rfl⟩ | ⟨p, q, rfl⟩⟩ |
            ⟨hu | hu | hu, p, q, rfl⟩ | ⟨hu, rfl | rfl | rfl | ⟨p, q, rfl⟩⟩ <;>
          have h2 := (atPosition_cases h).2
        · exact onOpen_move h2 (OwnMove.authRead hr hu)
        · simp only [otherReply, hu] at h2
          exact onOpen_move h2 (OwnMove.authRead hr hu)
        · exact onOpen_move h2 (OwnMove.p1Read hr hu)
        · simp only [otherReply, hu] at h2
          exact onOpen_move h2 (OwnMove.p1Read hr hu)
        · simp only [otherReply, hu] at h2
          exact onOpen_move h2 (OwnMove.p2CheckRead hr hu hne)
        · simp only [otherReply, hu] at h2
          exact onOpen_move h2 (OwnMove.p3Read hr hu)
        · simp only [otherReply, hu] at h2
          exact onOpen_move h2 (OwnMove.p4Read hr hu)
        · exact onOpen_move h2 (OwnMove.xRead _ (.inr (.inr rfl)) hr hu)
        · exact onOpen_move h2 (OwnMove.xRead _ (.inr (.inl rfl)) hr hu)
        · exact onOpen_move h2 (OwnMove.xRead _ (.inl rfl) hr hu)
        · simp only [otherReply, hu] at h2
          exact onOpen_move h2 (OwnMove.xRead _ (.inl rfl) hr hu)
      | none =>
        simp only [hp, microStep] at h
        cases hu : s.upc <;> simp only [hu] at h
        · cases h
          exact .rest hr (.inl hu)
        · cases h
        · exact onOpen_move h (OwnMove.authRead hr hu)
        · cases h
          exact .authSleep hr hu
        · cases h
        · exact onOpen_move h (OwnMove.p1Read hr hu)
        · cases h
        · split at h
          · rename_i he
            cases h
            exact .p2CheckNone hr hu (by simpa using he)
          · rename_i he
            exact onOpen_move h (OwnMove.p2CheckRead hr hu (by simpa using he))
        · cases h
          exact .p2Wait hr hu
        · cases h
        · exact onOpen_move h (OwnMove.p3Read hr hu)
        · cases h
          exact .p4Wait hr hu
        · cases h
        · exact onOpen_move h (OwnMove.p4Read hr hu)
        · cases h
        · exact onOpen_move h (OwnMove.xRead _ (.inl rfl) hr hu)
        · cases h
          exact .xSleep hr hu
        · cases h
          exact .rest hr (.inr hu)
  · simp only [hr, if_true] at h
    cases h
    exact .hostRead hr

/-! ### A host command -/

/-- The moves of a host command. -/
inductive HostMove (s : State) : State → Prop
  | responds (r : Response) : HostMove s (s.respond r)
  | fresh (fs : FrameSel) : s.busy = false → HostMove s (s.setFrame fs .fresh).respondOk
  | codec (fs : FrameSel) (f : Frame) (es : List LogEvent) : s.busy = false → ((s.frame fs).wf = true → f.wf = true) →
      HostMove s ((s.setFrame fs f).logEvents es).respondOk
  | image (es : List LogEvent) (r : Response) : s.busy = false → HostMove s ((s.logEvents es).respond r)
  | openPort : s.busy = false → HostMove s s.openLine.respondOk
  | closePort : s.busy = false → HostMove s s.closeLine.respondOk
  | write (fs : FrameSel) (img : Bytes) : s.busy = false → s.portOpen = true → (s.frame fs).image = some img →
      HostMove s (s.writeImage (s.frame fs) img).respondOk
  | readWaits : s.busy = false → s.portOpen = true → s.rxPending = [] →
      HostMove s { s.fillBuffer [] with rxf := .fresh, hostRead := true }
  | readEnds : s.busy = false → s.portOpen = true → s.rxPending ≠ [] → HostMove s s.finishHostRead
  | runAuth (u : User) (m : Word16) (w : Word32) : s.busy = false → s.stage = .preinit → s.upc = .idle →
      HostMove s { s.openLine with
        user := u, maxRetry := m, retryWait := w, retry := 0, attempts := 0, stage := .login, upc := .authSend }
  | runInit : s.busy = false → s.stage = .login → s.upc = .idle →
      HostMove s { s with stage := .init, probeHdr := maHeader, attempts := 0, upc := .p1Send }
  | readData (ufc : Bool) (k : BitVec 3) (p : Word32) : s.busy = false → s.stage = .xchg → s.upc = .idle →
      HostMove s { s with
        pollInt := p, sinkMask := k, ufc := ufc, lastHdr := none, toggle := false, ts := none, cycle := 0, attempts := 0
        upc := .xSend }
  | stopHeld : s.readInFlight = true → HostMove s { s with stopPending := true }
  | stop : s.readInFlight = false → HostMove s s.takeStop

theorem direct_move {s u t : State} (h : s.direct (.next u) = .next t) (hm : s.busy = false → HostMove s u) :
    HostMove s t := by
  rcases State.direct_cases h with ⟨_, rfl⟩ | ⟨hb, rfl⟩
  · exact .responds _
  · exact hm hb

theorem Frame.wf_iff {f : Frame} : f.wf = true ↔
    (∀ h, f.hdr = some h → h.length ≤ 255) ∧ (∀ d, f.data = some d → d.length ≤ 255) := by
  cases hh : f.hdr <;> cases hd : f.data <;> simp [Frame.wf, hh, hd]

/-- A codec operation that succeeds keeps the frame register's bounds. -/
theorem finishCodec_move {s : State} {fs : FrameSel} {c : CodecResult} (hb : s.busy = false)
    (h : ∀ f es, c = .done f es → (s.frame fs).wf = true → f.wf = true) : HostMove s (s.finishCodec fs c) := by
  cases c with
  | done f es => exact .codec fs f es hb (h f es rfl)
  | typeMismatch => exact .responds _
  | sizeMismatch => exact .responds _
  | refused => exact .responds _

theorem Frame.setHeader_wf {f g : Frame} {r : Operand} {es : List LogEvent} (h : f.setHeader r = .done g es)
    (hf : f.wf = true) : g.wf = true := by
  unfold Frame.setHeader at h
  split at h
  · cases h
  · split at h
    · cases h
    · rename_i b hb hl
      cases h
      rw [Frame.wf_iff] at hf ⊢
      simp only [Config.hdrMax] at hl
      simp only [Frame.withHeader, Option.some.injEq]
      exact ⟨fun h e => by subst e; omega, hf.2⟩

theorem Frame.setDataSize_wf {f g : Frame} {v : Bool} {r : Operand} {es : List LogEvent}
    (h : f.setDataSize v r = .done g es) (hf : f.wf = true) : g.wf = true := by
  unfold Frame.setDataSize at h
  split at h
  · cases h
  · cases h
  · split at h
    · cases h
    · cases h
      exact hf

theorem Frame.withData_wf {f : Frame} {d : Bytes} (hd : d.length ≤ 255) (hf : f.wf = true) :
    (f.withData d).wf = true := by
  rw [Frame.wf_iff] at hf ⊢
  unfold Frame.withData
  split <;> simp only [Option.some.injEq] <;> exact ⟨hf.1, fun _ e => by subst e; exact hd⟩

theorem Frame.setData_wf {f g : Frame} {v : Bool} {r : Operand} {es : List LogEvent}
    (h : f.setData v r = .done g es) (hf : f.wf = true) : g.wf = true := by
  unfold Frame.setData at h
  split at h
  · cases h
  · split at h
    · cases h
    · split at h
      · cases h
      · rename_i hl _
        cases h
        exact Frame.withData_wf (by simp only [Config.dataMax] at hl; omega) hf

theorem Frame.setChecksum_wf {f g : Frame} {es : List LogEvent} (h : f.setChecksum = .done g es) (hf : f.wf = true) :
    g.wf = true := by
  unfold Frame.setChecksum at h
  split at h <;> cases h
  exact hf

theorem Frame.supply_wf {f g : Frame} {v : Bool} {c : Word16} {es : List LogEvent} (h : f.supply v c = .done g es)
    (hf : f.wf = true) : g.wf = true := by
  unfold Frame.supply at h
  split at h
  · cases h
  · split at h <;> cases h <;> exact hf

theorem Frame.setChecksumV_wf {f g : Frame} {v : Bool} {r : Operand} {es : List LogEvent}
    (h : f.setChecksumV v r = .done g es) (hf : f.wf = true) : g.wf = true := by
  unfold Frame.setChecksumV at h
  split at h
  · cases h
  · exact Frame.supply_wf h hf
  · cases h
    exact hf

theorem Frame.prepared_hdr (f : Frame) (h d : Option Bytes) : (f.prepared h d).hdr = h.or f.hdr := by
  unfold Frame.prepared
  dsimp only
  repeat' split
  all_goals rfl

theorem Frame.prepared_data (f : Frame) (h d : Option Bytes) : (f.prepared h d).data = d.or f.data := by
  unfold Frame.prepared
  dsimp only
  repeat' split
  all_goals rfl

theorem overCap_false {cap : Nat} {o : Option Bytes} (h : ¬overCap cap o = true) (b : Bytes) (e : o = some b) :
    b.length ≤ cap := by
  subst e
  simpa [overCap] using h

theorem Frame.prepared_wf {f : Frame} {h d : Option Bytes} (hh : ∀ b, h = some b → b.length ≤ 255)
    (hd : ∀ b, d = some b → b.length ≤ 255) (hf : f.wf = true) : (f.prepared h d).wf = true := by
  rw [Frame.wf_iff] at hf
  have e1 : ∀ b, h.or f.hdr = some b → b.length ≤ 255 := by
    cases h with
    | none => simpa using hf.1
    | some c => simpa using hh c rfl
  have e2 : ∀ b, d.or f.data = some b → b.length ≤ 255 := by
    cases d with
    | none => simpa using hf.2
    | some c => simpa using hd c rfl
  rw [Frame.wf_iff, Frame.prepared_hdr, Frame.prepared_data]
  exact ⟨e1, e2⟩

theorem Frame.prepare_wf {f g : Frame} {ho dop : Option Operand} {es : List LogEvent}
    (h : f.prepare ho dop = .done g es) (hf : f.wf = true) : g.wf = true := by
  unfold Frame.prepare at h
  split at h
  · rename_i hb db _ _
    split at h
    · cases h
    · rename_i hc
      cases h
      simp only [Bool.or_eq_true, not_or] at hc
      exact Frame.prepared_wf (overCap_false hc.1) (overCap_false hc.2) hf
  · cases h

/-- Everything a host command can do; only the host operations are decoded from one. -/
theorem exec_host_move {i : Instr} {s t : State} (hk : i.kind = .hostOperation) (h : exec i s = .next t) :
    HostMove s t := by
  cases i <;> simp only [Instr.kind, homeChannel, reduceCtorEq] at hk <;> simp only [exec] at h
  case fnew fs => exact direct_move h (.fresh fs)
  case setHeader => exact direct_move h fun hb => finishCodec_move hb fun _ _ => Frame.setHeader_wf
  case setDataSize => exact direct_move h fun hb => finishCodec_move hb fun _ _ => Frame.setDataSize_wf
  case setData => exact direct_move h fun hb => finishCodec_move hb fun _ _ => Frame.setData_wf
  case setChecksum => exact direct_move h fun hb => finishCodec_move hb fun _ _ => Frame.setChecksum_wf
  case setChecksumV => exact direct_move h fun hb => finishCodec_move hb fun _ _ => Frame.setChecksumV_wf
  case prepare => exact direct_move h fun hb => finishCodec_move hb fun _ _ => Frame.prepare_wf
  case getHeader => exact direct_move h fun _ => .responds _
  case getData => exact direct_move h fun _ => .responds _
  case getDataSize => exact direct_move h fun _ => .responds _
  case getChecksum => exact direct_move h fun _ => .responds _
  case getRaw =>
    refine direct_move h fun hb => ?_
    split
    · exact .image _ _ hb
    · exact .responds _
  case getHex =>
    refine direct_move h fun _ => ?_
    split <;> exact .responds _
  case openPort => exact direct_move h .openPort
  case write =>
    refine direct_move h fun hb => ?_
    split
    · rename_i hp hi
      exact .write _ _ hb hp hi
    · exact .responds _
  case read =>
    refine direct_move h fun hb => ?_
    split
    · rename_i hp
      split
      · rename_i he
        exact .readWaits hb hp (by simpa using he)
      · rename_i he
        exact .readEnds hb hp (by simpa using he)
    · exact .responds _
  case closePort => exact direct_move h .closePort
  case pollRx =>
    refine direct_move h fun _ => ?_
    split <;> exact .responds _
  case runAuth =>
    refine direct_move h fun hb => ?_
    split
    · rename_i hc
      exact .runAuth _ _ _ hb hc.1 hc.2
    · exact .responds _
  case runInit =>
    refine direct_move h fun hb => ?_
    split
    · rename_i hc
      exact .runInit hb hc.1 hc.2
    · exact .responds _
  case readData =>
    refine direct_move h fun hb => ?_
    split
    · rename_i hc
      exact .readData _ _ _ hb hc.1 hc.2
    · exact .responds _
  case stop =>
    unfold execStop at h
    cases h
    split
    · rename_i hr
      split
      · exact .responds _
      · exact .stopHeld hr
    · rename_i hr
      exact .stop (by simpa using hr)
  case rdReg =>
    unfold execRdReg at h
    cases h
    split <;> exact .responds _

theorem hostStep_move {c : Bytes} {s t : State} (h : hostStep c s = .next t) : HostMove s t := by
  unfold hostStep at h
  split at h
  · rename_i i hd
    exact exec_host_move (decodeHost_kind hd) h
  · cases h
    exact .responds _

/-! ### A step -/

/-- The moves of `step`. In the last two the block's own micro-step is taken in `s`, or in `s` with the passing of time that
ended it taken in; a stop that was held is then taken when no read is in flight any more. -/
inductive Move (s : State) : State → Prop
  | reset (rest : List Input) : s.inputs = .reset :: rest → Move s (hardReset rest s)
  | host (c : Bytes) (rest : List Input) (t : State) : s.inputs = .host c :: rest → s.readReady = false →
      HostMove { s with inputs := rest } t → Move s t
  | arrive (b : Burst) (rest : List Input) : s.inputs = .burst b :: rest → s.readReady = false →
      Move s ({ s with inputs := rest }.arrive b)
  | own (rest : List Input) (u : State) : (∀ r, s.inputs ≠ .reset :: r) → OwnMove { s with inputs := rest } u →
      ¬(u.stopPending = true ∧ u.readInFlight = false) → Move s u
  | ownStopped (rest : List Input) (u : State) : (∀ r, s.inputs ≠ .reset :: r) → OwnMove { s with inputs := rest } u →
      u.stopPending = true → u.readInFlight = false → Move s u.takeStop

theorem settle_move {s t : State} {rest : List Input} (hr : ∀ r, s.inputs ≠ .reset :: r)
    (h : settle (ownStep { s with inputs := rest }) = .next t) : Move s t := by
  cases ho : ownStep { s with inputs := rest } with
  | next u =>
    rw [ho] at h
    have hm := ownStep_move ho
    simp only [settle] at h
    split at h
    · rename_i hc
      simp only [Bool.and_eq_true, Bool.not_eq_true'] at hc
      cases h
      exact .ownStopped rest u hr hm hc.1 hc.2
    · rename_i hc
      cases h
      exact .own rest _ hr hm (by simpa using hc)
  | fault r => rw [ho] at h; cases h
  | refused r => rw [ho] at h; cases h

/-- Everything a step can do. -/
theorem step_move {s t : State} (h : step s = .next t) : Move s t := by
  rcases step_cases s with ⟨rest, hi, hs⟩ | ⟨c, rest, hi, hr, hs⟩ | ⟨b, rest, hi, hr, hs⟩ | ⟨rest, hi, hr, hs⟩ | ⟨hc, hs⟩
  · rw [hs] at h
    cases h
    exact .reset rest hi
  · rw [hs] at h
    exact .host c rest t hi hr (hostStep_move h)
  · rw [hs] at h
    cases h
    exact .arrive b rest hi hr
  · rw [hs] at h
    exact settle_move (by simp [hi]) h
  · by_cases hr : ∃ r, s.inputs = .reset :: r
    · obtain ⟨r, hi⟩ := hr
      have : step s = .next (hardReset r s) := by simp [step, hi]
      rw [this] at h
      cases h
      exact .reset r hi
    · rw [hs] at h
      exact settle_move (rest := s.inputs) (by simpa using hr) h

end Sys2Proof.Machine
end

