-- ==== Sys2Proof/Laws/Effects.lean ====
section
/-!
SUPPORT. What each micro-step of the sequencer writes, said once: a read, the reading micro-steps, the end of AUTH_SLEEP, and
which of them a step runs. `m` and `n` are the content of the burst buffer after a read, `f` that of `RXF`.
-/

namespace Sys2Proof.Machine

/-! ### The assembly of a burst (41_transport.md R163) -/

theorem assembleChecksum_data (f : Frame) (c : Word16) : (assembleChecksum f c).frame.data = f.data := by
  unfold assembleChecksum
  split
  · rename_i h
    have hd := (Frame.supply_done h).2.2.1
    split <;> simpa using hd
  · rfl

/-- The frame of any burst is within its bounds (10_state.md R21, R23). -/
theorem assemble_wf (b : Bytes) : (assemble b).frame.wf = true := by
  rw [Frame.wf_iff]
  refine ⟨fun h => ?_, ?_⟩
  · rw [assemble_hdr]
    intro e
    cases e
    simp
  · simp only [assemble]
    repeat' split
    all_goals
      simp only [assembleChecksum_data, Frame.withHeader, Frame.withSize, Frame.fresh, Frame.withData, reduceCtorEq,
        false_implies, implies_true, Option.some.injEq]
    · intro d e
      subst e
      simp
    · rename_i h
      simp only [Frame.dataClash, Frame.withSize, Frame.withHeader] at h
      intro d e
      subst e
      have hs := (b.getD 2 0#8).isLt
      simp at h
      simp
      omega

/-- A burst of at least five bytes, by its fields. -/
theorem assemble_of_fields (x y z p q : Byte) (d : Bytes) :
    assemble ([x, y, z] ++ d ++ [p, q]) =
      if d.length ≠ z.toNat then ⟨⟨some [x, y], some z, none, none, false, false⟩, .err .dataBoundary, []⟩
      else assembleChecksum ⟨some [x, y], some z, some d, none, false, false⟩ (join16 p q) := by
  have hl : ([x, y, z] ++ d ++ [p, q]).length = d.length + 5 := by simp
  have hd : (([x, y, z] ++ d ++ [p, q]).take (d.length + 5 - 2)).drop 3 = d := by simp
  have e : [x, y, z] ++ d ++ [p, q] = ([x, y, z] ++ d) ++ [p, q] := by simp
  have g1 : ([x, y, z] ++ d ++ [p, q]).getD (d.length + 5 - 2) 0#8 = p := by
    rw [e, List.getD_eq_getElem?_getD, List.getElem?_append_right (by simp),
      show d.length + 5 - 2 - ([x, y, z] ++ d).length = 0 by simp]
    rfl
  have g2 : ([x, y, z] ++ d ++ [p, q]).getD (d.length + 5 - 1) 0#8 = q := by
    rw [e, List.getD_eq_getElem?_getD, List.getElem?_append_right (by simp),
      show d.length + 5 - 1 - ([x, y, z] ++ d).length = 1 by simp]
    rfl
  have n1 : ¬d.length + 5 ≤ 2 := by omega
  have n2 : ¬d.length + 5 = 3 := by omega
  have n3 : ¬d.length + 5 = 4 := by omega
  have e2 :
      (Frame.fresh.withHeader (([x, y, z] ++ d ++ [p, q]).take 2)).withSize (([x, y, z] ++ d ++ [p, q]).getD 2 0#8) =
        ⟨some [x, y], some z, none, none, false, false⟩ := by
    simp [Frame.withHeader, Frame.withSize, Frame.fresh, validAfterHeader]
  simp only [assemble, hl, hd, g1, g2, n1, n2, n3, if_false]
  rw [e2]
  by_cases h : d.length = z.toNat
  · simp [h, Frame.dataClash, Frame.withData]
  · have h' : ¬z.toNat = d.length := fun e => h e.symm
    simp [h, h', Frame.dataClash]

/-- The comparison of the two checksums of a burst. -/
theorem assembleChecksum_eq (h d : Bytes) (n : Byte) (c : Word16) :
    assembleChecksum ⟨some h, some n, some d, none, false, false⟩ c =
      if c = checksum h n d then ⟨⟨some h, some n, some d, some c, true, true⟩, .ok, []⟩
      else ⟨⟨some h, some n, some d, some c, true, false⟩, .err .checksumFailure, [.wCsumMismatch]⟩ := by
  by_cases hc : c = checksum h n d
  · simp [assembleChecksum, Frame.supply, Frame.csOf, hc, Frame.withSupplied, Frame.verifies]
  · have hc' : ¬checksum h n d = c := fun e => hc e.symm
    simp [assembleChecksum, Frame.supply, Frame.csOf, hc, hc', Frame.withSupplied, Frame.verifies]

/-- A burst read as a complete frame, with a good or a bad checksum, has header, size, that many data bytes, and checksum. -/
theorem assemble_complete {b : Bytes} (h : (assemble b).result = .ok ∨ (assemble b).result = .err .checksumFailure) :
    ∃ (x y z : Byte) (d : Bytes) (p q : Byte), b = [x, y, z] ++ d ++ [p, q] ∧ d.length = z.toNat := by
  match b with
  | [] => simp [assemble] at h
  | [_] => simp [assemble] at h
  | [_, _] => simp [assemble] at h
  | [_, _, _] => simp [assemble] at h
  | [_, _, _, _] =>
    revert h
    simp only [assemble]
    simp
    split <;> simp
  | x :: y :: z :: u :: v :: w =>
    obtain ⟨m, q, e1⟩ : ∃ m q, u :: v :: w = m ++ [q] := ⟨_, _, (List.dropLast_concat_getLast (by simp)).symm⟩
    obtain ⟨d, p, e2⟩ : ∃ d p, m = d ++ [p] := by
      have hm : m ≠ [] := by
        rintro rfl
        simp at e1
      exact ⟨_, _, (List.dropLast_concat_getLast hm).symm⟩
    have e : x :: y :: z :: u :: v :: w = [x, y, z] ++ d ++ [p, q] := by
      rw [e1, e2]
      simp
    refine ⟨x, y, z, d, p, q, e, ?_⟩
    rw [e, assemble_of_fields] at h
    by_contra hd
    simp [hd] at h

/-! ### A read -/

theorem State.readLine_afterRead {s : State} {b : Burst} {rest : List Burst} (h : s.rxPending = b :: rest) :
    s.readLine = (s.afterRead b rest, burstResult b) := State.readLine_burst h

theorem State.readLine_afterSilence {s : State} (h : s.rxPending = []) :
    s.readLine = (s.afterSilence, .err .globalTimeout) := State.readLine_silence h

/-- The read of a one-byte burst: its byte is the whole header, and the code is 10 (41_transport.md R163). -/
theorem State.readLine_oneByte {s : State} {x : Byte} {rest : List Burst} (h : s.rxPending = ⟨x, []⟩ :: rest) :
    s.readLine =
      ({ s with
          rxPending := rest, rxf := ⟨some [x], none, none, none, false, false⟩, rxbuf := [(0, x)], rxbufN := 1 },
        .err .headerBoundary) := by
  rw [State.readLine_afterRead h]
  simp [State.afterRead, burstResult, assemble, Burst.bytes, Frame.withHeader, Frame.fresh, validAfterHeader, Memory.store,
    Memory.write]

/-- The header that a read of a burst of two bytes or more leaves. -/
theorem State.afterRead_hdr {s : State} {b : Burst} {rest : List Burst} {q : Byte} {r : Bytes} (h : b.rest = q :: r) :
    (s.afterRead b rest).rxf.hdr = some [b.first, q] := by
  simp only [State.afterRead]
  rw [assemble_hdr]
  simp [Burst.bytes, h]

/-- A read's writes: `RXF`, the burst buffer, the unread bursts and the log. -/
abbrev State.reading (s : State) (f : Frame) (m : Memory) (n : Nat) (es : List LogEvent) : State :=
  { s with rxf := f, rxbuf := m, rxbufN := n, rxPending := s.rxPending.tail, log := s.log ++ es }

/-- What a read leaves of `RXF` and the burst buffer is well formed (10_state.md R21, R23, R43). -/
def ReadWf (f : Frame) (m : Memory) (n : Nat) : Prop :=
  f.wf = true ∧ ∀ t : State, { t with rxbuf := m, rxbufN := n }.bufferWf

theorem ReadWf_silence : ReadWf .fresh [] 0 :=
  ⟨rfl, fun _ => ⟨rfl, Nat.zero_le _, by simp [Memory.read]⟩⟩

theorem ReadWf_burst (b : Bytes) :
    ReadWf (assemble (b.take Config.rxbufCap)).frame (Memory.store [] 0 (b.take Config.rxbufCap))
      (b.take Config.rxbufCap).length := by
  refine ⟨assemble_wf _, fun t => ⟨Memory.wf_store rfl 0 _, by simp, fun a => ?_⟩⟩
  simp only
  rw [Memory.read_store]
  by_cases h : 0 ≤ a ∧ a < 0 + (b.take Config.rxbufCap).length
  · rw [if_pos h]
    simp at h ⊢
  · rw [if_neg h]
    simp [Memory.read] at h ⊢
    omega

/-- Whatever a read takes, these are its writes; and code 9 means that nothing waited. -/
theorem State.readLine_effect (s : State) :
    ∃ (f : Frame) (m : Memory) (n : Nat) (es : List LogEvent) (r : ReadResult),
      s.readLine = (s.reading f m n es, r) ∧ ReadWf f m n ∧ (r = .err .globalTimeout ↔ s.rxPending = []) := by
  cases h : s.rxPending with
  | nil =>
    refine ⟨.fresh, [], 0, [], .err .globalTimeout, ?_, ReadWf_silence, by simp⟩
    rw [State.readLine_silence h]
    simp [State.reading, h]
  | cons b rest =>
    refine ⟨_, _, _, (assemble (b.bytes.take Config.rxbufCap)).events, (assemble (b.bytes.take Config.rxbufCap)).result, ?_,
      ReadWf_burst b.bytes, ?_⟩
    · rw [State.readLine_burst h]
      simp only [State.reading, h, List.tail_cons]
    · simp [assemble_not_timeout]

/-! ### The reading micro-steps -/

/-- A host's `READ` as it ends. -/
theorem State.finishHostRead_effect (s : State) :
    ∃ (f : Frame) (m : Memory) (n : Nat) (es : List LogEvent) (r : Response), ReadWf f m n ∧
      s.finishHostRead = { s.reading f m n es with hostRead := false, responses := s.responses ++ [r] } := by
  obtain ⟨f, m, n, es, r, h, hw, _⟩ := s.readLine_effect
  refine ⟨f, m, n, es, readResponse r, hw, ?_⟩
  simp only [State.finishHostRead, h]
  rfl

/-- AUTH_READ completes or waits (42_sequencer.md R192). -/
theorem authReadStep_effect (s : State) :
    ∃ (f : Frame) (m : Memory) (n : Nat) (es : List LogEvent), ReadWf f m n ∧
      (authReadStep s = { s.reading f m n es with upc := .idle, responses := s.responses ++ [.ok .empty] } ∨
        authReadStep s = { s.reading f m n es with upc := .authSleep }) := by
  obtain ⟨f, m, n, es, r, h, hw, _⟩ := s.readLine_effect
  cases r with
  | ok =>
    refine ⟨f, m, n, es, hw, .inl ?_⟩
    simp only [authReadStep, h]
    rfl
  | err c =>
    refine ⟨f, m, n, es ++ [.eAuthRetry], hw, .inr ?_⟩
    simp [authReadStep, h, State.reading, State.logEvents]

/-- P1_READ is terminal, probes again, or ends phase 1 (42_sequencer.md R197, R198). -/
theorem p1ReadStep_effect (s : State) :
    ∃ (f : Frame) (m : Memory) (n : Nat) (es : List LogEvent), ReadWf f m n ∧
      (p1ReadStep s =
          { s.reading f m n es with
            log := s.log ++ es ++ [.eTerminal], upc := .halt
            err := ⟨.initTimeout, s.stage, s.attempts, some .globalTimeout⟩
            responses := s.responses ++ [.protocolFatal .initTimeout s.stage s.attempts] } ∨
        (∃ p, p1ReadStep s = { s.reading f m n es with upc := .p1Send, probeHdr := p }) ∨
        (∃ p, p1ReadStep s =
          { s.reading f m n es with upc := .p2Send, stage := .postInit, burst := 0, probeHdr := p })) := by
  obtain ⟨f, m, n, es, r, h, hw, _⟩ := s.readLine_effect
  have after : ∀ es', p1ReadStep s = (s.reading f m n es').salvageHeader.afterHeader →
      (∃ p, p1ReadStep s = { s.reading f m n es' with upc := .p1Send, probeHdr := p }) ∨
      (∃ p, p1ReadStep s =
        { s.reading f m n es' with upc := .p2Send, stage := .postInit, burst := 0, probeHdr := p }) := by
    intro es' e
    rw [e]
    unfold State.afterHeader
    split
    · exact .inr ⟨_, rfl⟩
    · exact .inl ⟨_, rfl⟩
  cases r with
  | ok => exact ⟨f, m, n, es, hw, .inr (after es (by simp only [p1ReadStep, h]))⟩
  | err c =>
    by_cases hc : c = .globalTimeout
    · subst hc
      refine ⟨f, m, n, es, hw, .inl ?_⟩
      simp only [p1ReadStep, h]
      rfl
    · refine ⟨f, m, n, es ++ [.eInitSalvage], hw, .inr (after _ ?_)⟩
      have e : p1ReadStep s = ((s.reading f m n es).logEvents [.eInitSalvage]).salvageHeader.afterHeader := by
        simp only [p1ReadStep, h]
      rw [e]
      simp only [State.reading, State.logEvents, List.append_assoc]

theorem State.tolerate_effect (s : State) (r : ReadResult) : ∃ es, s.tolerate r = { s with log := s.log ++ es } := by
  cases r
  · exact ⟨[], by simp [State.tolerate]⟩
  · exact ⟨_, rfl⟩

/-- A read that is tolerated, with any next position (42_sequencer.md R200, R203). -/
theorem State.readTolerated_effect (s : State) :
    ∃ (f : Frame) (m : Memory) (n : Nat) (es : List LogEvent), ReadWf f m n ∧
      s.readLine.1.tolerate s.readLine.2 = s.reading f m n es := by
  obtain ⟨f, m, n, es, r, h, hw, _⟩ := s.readLine_effect
  obtain ⟨es', e⟩ := (s.reading f m n es).tolerate_effect r
  refine ⟨f, m, n, es ++ es', hw, ?_⟩
  rw [h]
  simp only
  rw [e]
  simp [State.reading]

/-- P2_CHECK when a reply is waiting. -/
theorem p2CheckRead_effect (s : State) :
    ∃ (f : Frame) (m : Memory) (n : Nat) (es : List LogEvent), ReadWf f m n ∧
      p2CheckRead s = { s.reading f m n es with upc := .p2Wait } := by
  obtain ⟨f, m, n, es, hw, h⟩ := s.readTolerated_effect
  refine ⟨f, m, n, es, hw, ?_⟩
  unfold p2CheckRead
  rw [h]

/-- P3_READ. -/
theorem p3ReadStep_effect (s : State) :
    ∃ (f : Frame) (m : Memory) (n : Nat) (es : List LogEvent), ReadWf f m n ∧
      p3ReadStep s = { s.reading f m n es with upc := .p4Wait } := by
  obtain ⟨f, m, n, es, hw, h⟩ := s.readTolerated_effect
  refine ⟨f, m, n, es, hw, ?_⟩
  unfold p3ReadStep
  rw [h]

/-- P4_READ probes again, before the twentieth attempt only, or completes (42_sequencer.md R206). -/
theorem p4ReadStep_effect (s : State) :
    ∃ (f : Frame) (m : Memory) (n : Nat) (es : List LogEvent), ReadWf f m n ∧
      ((s.p4Try.toNat < 20 ∧ p4ReadStep s = { s.reading f m n es with upc := .p4Send }) ∨
        p4ReadStep s =
          { s.reading f m n es with upc := .idle, stage := .xchg, responses := s.responses ++ [.ok .empty] }) := by
  obtain ⟨f, m, n, es, r, h, hw, _⟩ := s.readLine_effect
  by_cases hc : r = .err .globalTimeout
  · subst hc
    simp only [p4ReadStep, h]
    split
    · rename_i h4
      exact ⟨f, m, n, es, hw, .inl ⟨h4, rfl⟩⟩
    · refine ⟨f, m, n, es ++ [.wInitAbort], hw, .inr ?_⟩
      simp [State.completeInit, State.logEvents, State.respondOk, State.respond]
  · obtain ⟨es', e⟩ := (s.reading f m n es).tolerate_effect r
    refine ⟨f, m, n, es ++ es', hw, .inr ?_⟩
    have e' : p4ReadStep s = ((s.reading f m n es).tolerate r).completeInit := by
      simp only [p4ReadStep, h]
    rw [e', e]
    simp [State.completeInit, State.respondOk, State.respond]

/-- What is done with a reply in X_READ writes the timestamp, the sinks, the log and the clock's samples; at most one record
for each sink; and no sample in furnace-clock mode (42_sequencer.md R219 to R221). -/
theorem ReplyProcess_effect {p : State → State} (hp : ReplyProcess p) (s : State) :
    ∃ (ts : Option Word64) (k : List SinkRecord) (es : List LogEvent) (c : Nat),
      p s = { s with ts := ts, sinks := s.sinks ++ k, log := s.log ++ es, clockReads := c } ∧ k.length ≤ 3 ∧
      (s.ufc = true → c = s.clockReads) := by
  rcases hp with rfl | rfl | rfl
  · exact ⟨s.ts, [], [], s.clockReads, by simp, by simp, fun _ => rfl⟩
  · unfold State.decodeClock
    split
    · split
      · exact ⟨_, [], [], s.clockReads, by simp; rfl, by simp, fun _ => rfl⟩
      · exact ⟨s.ts, [], _, s.clockReads, by simp [State.logEvents]; rfl, by simp, fun _ => rfl⟩
    · exact ⟨s.ts, [], [], s.clockReads, by simp, by simp, fun _ => rfl⟩
  · have hl : ∀ t, (routeRecords Config.decodeFields s.sinkMask s.rxf t).length ≤ 3 := by
      intro t
      unfold routeRecords
      repeat' split
      all_goals simp
    unfold State.routeTelemetry
    split
    · split
      · exact ⟨s.ts, _, [], s.clockReads, by simp [State.route, State.emit]; rfl, hl _, fun _ => rfl⟩
      · exact ⟨s.ts, [], _, s.clockReads, by simp [State.logEvents]; rfl, by simp, fun _ => rfl⟩
    · rename_i h
      exact ⟨s.ts, _, [], s.clockReads + 1, by simp [State.route, State.emit]; rfl, hl _, fun e => absurd e h⟩

/-- X_READ processes the reply, or is terminal with any code but 2 (42_sequencer.md R217). -/
theorem xReadStep_effect {p : State → State} (hp : ReplyProcess p) (s : State) :
    ∃ (f : Frame) (m : Memory) (n : Nat) (es : List LogEvent), ReadWf f m n ∧
      ((∃ (lh : Option Hdr) (ts : Option Word64) (k : List SinkRecord) (c : Nat), k.length ≤ 3 ∧
          (s.ufc = true → c = s.clockReads) ∧
          xReadStep p s =
            { s.reading f m n es with
              lastHdr := lh, ts := ts, sinks := s.sinks ++ k, clockReads := c, upc := .xSleep }) ∨
        (∃ code, code ≠ .checksumFailure ∧
          xReadStep p s =
            { s.reading f m n es with
              log := s.log ++ es ++ [.eTerminal], err := ⟨.commError, s.stage, s.attempts, some code⟩, upc := .halt
              responses := s.responses ++ [.commError code] })) := by
  obtain ⟨f, m, n, es, r, h, hw, _⟩ := s.readLine_effect
  obtain ⟨ts, k, es', c, e, hk, hc⟩ := ReplyProcess_effect hp (s.reading f m n es).noteHeader
  have done : xReadStep p s = { p (s.reading f m n es).noteHeader with upc := .xSleep } →
      xReadStep p s =
        { s.reading f m n (es ++ es') with
          lastHdr := (s.reading f m n es).noteHeader.lastHdr, ts := ts, sinks := s.sinks ++ k, clockReads := c
          upc := .xSleep } := by
    intro h'
    rw [h', e]
    simp [State.noteHeader]
  cases r with
  | ok =>
    exact ⟨f, m, n, es ++ es', hw, .inl ⟨_, ts, k, c, hk, hc, done (by simp only [xReadStep, h])⟩⟩
  | err code =>
    by_cases h2 : code = .checksumFailure
    · subst h2
      exact ⟨f, m, n, es ++ es', hw, .inl ⟨_, ts, k, c, hk, hc, done (by simp only [xReadStep, h])⟩⟩
    · refine ⟨f, m, n, es, hw, .inr ⟨code, h2, ?_⟩⟩
      have e' : xReadStep p s = (s.reading f m n es).raiseCommError code := by
        simp only [xReadStep, h]
      rw [e']
      rfl

/-- The end of AUTH_SLEEP sends again or is terminal (42_sequencer.md R193, 60_exceptions.md R275). -/
theorem authSleepDone_effect (s : State) :
    (s.maxRetry.toNat ≤ (satInc s.retry).toNat ∧
      authSleepDone s =
        { s with
          portOpen := true, rxPending := [], retry := satInc s.retry, upc := .halt
          err := ⟨.authExhausted, s.stage, (satInc s.retry).setWidth 32, none⟩
          log := s.log ++ [.eTerminal]
          responses := s.responses ++ [.protocolFatal .authExhausted s.stage ((satInc s.retry).setWidth 32)] }) ∨
    ((satInc s.retry).toNat < s.maxRetry.toNat ∧
      authSleepDone s =
        { s with portOpen := true, rxPending := [], retry := satInc s.retry, upc := .authSend }) := by
  by_cases h : s.maxRetry.toNat ≤ (satInc s.retry).toNat
  · refine .inl ⟨h, ?_⟩
    simp only [authSleepDone]
    rw [if_pos (show s.reopenLine.maxRetry.toNat ≤ _ from h)]
    rfl
  · refine .inr ⟨by omega, ?_⟩
    simp only [authSleepDone]
    rw [if_neg (show ¬s.reopenLine.maxRetry.toNat ≤ _ from h)]
    rfl

/-! ### Which micro-step a step runs -/

/-- The reply row of the first burst that waits. -/
theorem fetchWire_of_burst {s : State} {b : Burst} {rest : List Burst} {q : Byte} {r : Bytes} (h : s.rxPending = b :: rest)
    (hq : b.rest = q :: r) (hu : fetchRequest s = none) :
    fetchWire s = (decodeReply s.upc (decide (burstResult b = .ok)) b.first q).toOption := by
  rw [fetchWire_reply hu]
  simp only [fetchReply, h, hq, readsOk]
  rfl

/-- Nothing waits, or the position reads nothing: no reply row. -/
theorem fetchWire_none {s : State} (hu : fetchRequest s = none)
    (h : s.rxPending = [] ∨ ∀ ok, decodeReply s.upc ok = fun _ _ => .error .noReply) : fetchWire s = none := by
  rw [fetchWire_reply hu]
  simp only [fetchReply]
  split
  · rename_i b rest hb
    split
    · rcases h with h | h
      · rw [h] at hb
        cases hb
      · simp only [h, Except.toOption]
    · rfl
  · rfl

theorem ownStep_row {s : State} {i : Instr} (hh : s.hostRead = false) (hf : fetchWire s = some i) :
    ownStep s = exec i s := by
  simp [ownStep, hh, hf]

theorem ownStep_micro {s : State} (hh : s.hostRead = false) (hf : fetchWire s = none) : ownStep s = microStep s := by
  simp [ownStep, hh, hf]

theorem ownStep_hostRead {s : State} (hh : s.hostRead = true) : ownStep s = .next s.finishHostRead := by
  simp [ownStep, hh]

/-- The step in which time passes. -/
theorem step_of_elapse {s u : State} {rest : List Input} (hi : s.inputs = .elapse :: rest) (hr : s.readReady = false)
    (ho : ownStep { s with inputs := rest } = .next u) (hu : u.stopPending = false) : step s = .next u := by
  simp [step, hi, hr, ho, settle, hu]

/-- The step with nothing from outside any more. -/
theorem step_of_nothing {s u : State} (hi : s.inputs = []) (ho : ownStep s = .next u) (hu : u.stopPending = false) :
    step s = .next u := by
  simp [step, hi, ho, settle, hu]

/-- The step that ends a read whose burst is there. -/
theorem step_of_ready {s u : State} (hr : s.readReady = true) (hi : ∀ r, s.inputs ≠ .reset :: r)
    (ho : ownStep s = .next u) (hu : u.stopPending = false) : step s = .next u := by
  unfold step
  split <;> simp_all [settle]

theorem stepsTo_append {a b : Nat} {s t u : State} (h1 : stepsTo a s t) (h2 : stepsTo b t u) : stepsTo (a + b) s u := by
  induction a generalizing s with
  | zero =>
    simp only [stepsTo] at h1
    subst h1
    simpa using h2
  | succ n ih =>
    obtain ⟨v, hv, h⟩ := h1
    rw [show n + 1 + b = (n + b) + 1 by omega]
    exact ⟨v, hv, ih h⟩

end Sys2Proof.Machine
end

