-- ==== Sys2Proof/Laws/PerInstr.lean ====
section
/-!
SUPPORT. Statements about every instruction as syntax, made per constructor: the encoder writes bytes that fit the row's
`match` and `mask` of spec/opcode_table.json (30_encoding.md R107).
-/

namespace Sys2Proof.Laws.EncodingFitsTable

/-- The bytes of an instruction begin with bytes that fit its row of the opcode table. -/
def Statement (i : Instr) : Prop := fitsRow (rowOf i) (encode i) = true

theorem fnew (fs : FrameSel) : Statement (.fnew fs) := rfl

theorem setHeader (fs : FrameSel) (verify : Bool) (r : Operand) : Statement (.setHeader fs verify r) := rfl

theorem setDataSize (fs : FrameSel) (verify : Bool) (r : Operand) : Statement (.setDataSize fs verify r) := rfl

theorem setData (fs : FrameSel) (verify : Bool) (r : Operand) : Statement (.setData fs verify r) := rfl

theorem setChecksum (fs : FrameSel) : Statement (.setChecksum fs) := rfl

theorem setChecksumV (fs : FrameSel) (verify : Bool) (r : Operand) : Statement (.setChecksumV fs verify r) := rfl

theorem prepare (fs : FrameSel) (header : Option Operand) (data : Option Operand) : Statement (.prepare fs header data) := rfl

theorem getHeader (fs : FrameSel) (fmt : Fmt) : Statement (.getHeader fs fmt) := rfl

theorem getData (fs : FrameSel) (fmt : Fmt) : Statement (.getData fs fmt) := rfl

theorem getDataSize (fs : FrameSel) (fmt : Fmt) : Statement (.getDataSize fs fmt) := rfl

theorem getChecksum (fs : FrameSel) (fmt : Fmt) : Statement (.getChecksum fs fmt) := rfl

theorem getRaw (fs : FrameSel) : Statement (.getRaw fs) := rfl

theorem getHex (fs : FrameSel) : Statement (.getHex fs) := rfl

theorem openPort : Statement .openPort := rfl

theorem write (fs : FrameSel) : Statement (.write fs) := rfl

theorem read : Statement .read := rfl

theorem closePort : Statement .closePort := rfl

theorem pollRx : Statement .pollRx := rfl

theorem runAuth (user : User) (maxRetry : Word16) (retryWait : Word32) : Statement (.runAuth user maxRetry retryWait) := rfl

theorem runInit : Statement .runInit := rfl

theorem readData (ufc : Bool) (sinks : BitVec 3) (pollInterval : Word32) : Statement (.readData ufc sinks pollInterval) := rfl

theorem stop : Statement .stop := rfl

theorem rdReg (idx : Byte) : Statement (.rdReg idx) := rfl

theorem raPlumber : Statement .raPlumber := rfl

theorem raNormal : Statement .raNormal := rfl

theorem raNormalAlt : Statement .raNormalAlt := rfl

theorem raService : Statement .raService := rfl

theorem maProbe : Statement .maProbe := rfl

theorem m2Probe : Statement .m2Probe := rfl

theorem rbAck : Statement .rbAck := rfl

theorem m1Req : Statement .m1Req := rfl

theorem m2Req : Statement .m2Req := rfl

theorem m3Req : Statement .m3Req := rfl

theorem echoProbe (first : Byte) (second : Option Byte) : Statement (.echoProbe first second) := by
  cases second <;> simp [Statement, rowOf, encode, fitsRow, free, fixed, RowByte.fits, be16, Config.frameEnd]

theorem rspMDigit (digit : BitVec 4) : Statement (.rspMDigit digit) := by
  have h : ∀ d : BitVec 4, fitsRow (rowOf (.rspMDigit d)) (encode (.rspMDigit d)) = true := by decide
  exact h digit

theorem rspM1 : Statement .rspM1 := rfl

theorem rspM2 : Statement .rspM2 := rfl

theorem rspM3 : Statement .rspM3 := rfl

theorem rspOther (first second : Byte) : Statement (.rspOther first second) := by
  simp [Statement, rowOf, encode, fitsRow, free, RowByte.fits]

theorem rspAuth (first second : Byte) : Statement (.rspAuth first second) := by
  simp [Statement, rowOf, encode, fitsRow, free, RowByte.fits]

end Sys2Proof.Laws.EncodingFitsTable
end

