-- ==== Sys2Proof/Tests/Slice0.lean ====
section
/-!
SUPPORT. Tests, each one step or one decoding, with the expected result taken from spec/95_test_vectors.md (the vector is named
in the comment) or worked out by hand from the rule named; and, for every statement with hypotheses, a witness that meets them.
-/

namespace Sys2Proof.Tests

open Sys2Proof Sys2Proof.Machine

/-! ### Helpers -/

/-- A state in which the next thing from outside is this command. -/
def hosted (s : State) (c : Bytes) : State := { s with inputs := [.host c] }

/-- The state that a step answers, if it is a next state. -/
def nextOf (o : Result) : Option State :=
  match o with
  | .next t => some t
  | _ => none

/-- What one command does to a state. -/
def cmd (s : State) (c : Bytes) : Option State := nextOf (step (hosted s c))

/-- The sequencer at a position with the port open and these bursts waiting. -/
def seqAt (st : Stage) (u : Upc) (bs : List Burst) : State :=
  { State.reset with stage := st, upc := u, portOpen := true, rxPending := bs }

/-- The frame of vector K8. -/
def frameK8 : Frame := ⟨some [0x4D, 0x41], some 1, some [0x01], some 0x0090, false, true⟩

/-- Reset with the frame of K8 in `TXF`. -/
def stateK8 : State := { State.reset with txf := frameK8 }

/-- Reset with the frame of K6 in `TXF`. -/
def stateK6 : State := { State.reset with txf := ⟨none, some 1, some [0x01], none, false, false⟩ }

/-- The burst of vector T5a, the shortest good frame. -/
def burstT5a : Burst := ⟨0x4D, [0x41, 0x00, 0x00, 0x8E]⟩

/-! ### Ill-formed terms: each check of WellFormed refuses one, and admits its neighbour -/

theorem test_illFormed_operand :
    (⟨.rawBytes, List.replicate 65536 0⟩ : Operand).wf = false ∧ (⟨.rawBytes, List.replicate 65535 0⟩ : Operand).wf = true := by
  simp only [Operand.wf, List.length_replicate]
  decide

theorem test_illFormed_setters (r : Operand) (h : r.wf = false) :
    Instr.wf (.setHeader .txf true r) = false ∧ Instr.wf (.setDataSize .txf true r) = false ∧
      Instr.wf (.setData .rxf false r) = false ∧ Instr.wf (.setChecksumV .rxf false r) = false :=
  ⟨h, h, h, h⟩

theorem test_illFormed_prepare (r : Operand) (h : r.wf = false) :
    Instr.wf (.prepare .txf (some r) none) = false ∧ Instr.wf (.prepare .txf none (some r)) = false := by
  simp [Instr.wf, Operand.optWf, h]

theorem test_illFormed_rdReg : Instr.wf (.rdReg 27) = false ∧ Instr.wf (.rdReg 26) = true := by decide

theorem test_illFormed_echoProbe :
    Instr.wf (.echoProbe 0x4D (some 0x41)) = false ∧ Instr.wf (.echoProbe 0x4D (some 0x42)) = true ∧
      Instr.wf (.echoProbe 0x4D none) = true := by decide

/-! ### Decoding: every constructor, from a word written out from the spec's encoding -/

/-- 30_encoding.md R98, R99; K3, K5, K6, K7, K8, K12, K16 to K20. -/
theorem test_decode_codec :
    decode .host [0x01, 0x01] = .ok (.fnew .rxf) ∧
    decode .host [0x02, 0x00, 0x01, 0x01, 0x00, 0x01, 0x41] = .ok (.setHeader .txf true ⟨.rawBytes, [0x41]⟩) ∧
    decode .host [0x03, 0x00, 0x01, 0x00, 0x00, 0x01, 0x02] = .ok (.setDataSize .txf true ⟨.integer, [0x02]⟩) ∧
    decode .host [0x04, 0x00, 0x01, 0x03, 0x00, 0x01, 0x01] = .ok (.setData .txf true ⟨.integerList, [0x01]⟩) ∧
    decode .host [0x05, 0x00] = .ok (.setChecksum .txf) ∧
    decode .host [0x06, 0x00, 0x00, 0x01, 0x00, 0x02, 0x12, 0x34] =
      .ok (.setChecksumV .txf false ⟨.rawBytes, [0x12, 0x34]⟩) ∧
    decode .host [0x07, 0x00, 0x03, 0x01, 0x00, 0x02, 0x4D, 0x41, 0x01, 0x00, 0x01, 0x01] =
      .ok (.prepare .txf (some ⟨.rawBytes, [0x4D, 0x41]⟩) (some ⟨.rawBytes, [0x01]⟩)) ∧
    decode .host [0x08, 0x00, 0x02] = .ok (.getHeader .txf .hexDigits) ∧
    decode .host [0x09, 0x01, 0x01] = .ok (.getData .rxf .rawBytes) ∧
    decode .host [0x0A, 0x00, 0x00] = .ok (.getDataSize .txf .integer) ∧
    decode .host [0x0B, 0x00, 0x03] = .ok (.getChecksum .txf .integerList) ∧
    decode .host [0x0C, 0x00] = .ok (.getRaw .txf) ∧
    decode .host [0x0D, 0x00] = .ok (.getHex .txf) := by decide

/-- 30_encoding.md R98, R99. -/
theorem test_decode_transport_and_sequencer :
    decode .host [0x10] = .ok .openPort ∧ decode .host [0x11, 0x00] = .ok (.write .txf) ∧
    decode .host [0x12] = .ok .read ∧ decode .host [0x13] = .ok .closePort ∧ decode .host [0x14] = .ok .pollRx ∧
    decode .host [0x20, 0x03, 0x01, 0x02, 0x00, 0x00, 0x13, 0x88] = .ok (.runAuth .service 258 5000) ∧
    decode .host [0x21] = .ok .runInit ∧
    decode .host [0x22, 0x0F, 0x01, 0x00, 0x00, 0x00] = .ok (.readData true 7 16777216) ∧
    decode .host [0x22, 0x02, 0x00, 0x00, 0x00, 0x01] = .ok (.readData false 1 1) ∧
    decode .host [0x23] = .ok .stop ∧ decode .host [0x30, 0x1A] = .ok (.rdReg 26) := by decide

/-- 43_wire_frames.md R240 to R250; the bytes of 95_test_vectors.md section 5. -/
theorem test_decode_requests :
    decode (.tx .authSend) [0x52, 0x61, 0x03, 0x00, 0x00, 0x7B, 0x01, 0x31, 0x0D] = .ok .raPlumber ∧
    decode (.tx .authSend) [0x52, 0x61, 0x03, 0x00, 0x00, 0x01, 0x00, 0xB7, 0x0D] = .ok .raNormal ∧
    decode (.tx .authSend) [0x52, 0x61, 0x03, 0x00, 0x00, 0xF3, 0x01, 0xA9, 0x0D] = .ok .raNormalAlt ∧
    decode (.tx .authSend) [0x52, 0x61, 0x03, 0x00, 0xFF, 0xF9, 0x02, 0xAE, 0x0D] = .ok .raService ∧
    decode (.tx .p1Send) [0x4D, 0x41, 0x01, 0x01, 0x00, 0x90, 0x0D] = .ok .maProbe ∧
    decode (.tx .p4Send) [0x4D, 0x32, 0x01, 0x01, 0x00, 0x81, 0x0D] = .ok .m2Probe ∧
    decode (.tx .p3Send) [0x52, 0x62, 0x03, 0x00, 0x00, 0x01, 0x00, 0xB8, 0x0D] = .ok .rbAck ∧
    decode (.tx .xSend) [0x4D, 0x31, 0x01, 0x01, 0x00, 0x80, 0x0D] = .ok .m1Req ∧
    decode (.tx .xSend) [0x4D, 0x32, 0x01, 0x01, 0x00, 0x81, 0x0D] = .ok .m2Req ∧
    decode (.tx .xSend) [0x4D, 0x33, 0x01, 0x01, 0x00, 0x82, 0x0D] = .ok .m3Req ∧
    decode (.tx .p1Send) [0x4D, 0x20, 0x01, 0x01, 0x00, 0x6F, 0x0D] = .ok (.echoProbe 0x4D (some 0x20)) ∧
    decode (.tx .p1Send) [0x4D, 0x01, 0x01, 0x00, 0x4F, 0x0D] = .ok (.echoProbe 0x4D none) := by decide

/-- 43_wire_frames.md R251 to R256; the reply classification of 95_test_vectors.md section 5. -/
theorem test_decode_replies :
    decode (.rx .p1Read true) [0x4D, 0x30] = .ok (.rspMDigit 0) ∧
    decode (.rx .p1Read true) [0x4D, 0x2F] = .ok (.rspOther 0x4D 0x2F) ∧
    decode (.rx .p1Read true) [0x4D, 0x40] = .ok (.rspOther 0x4D 0x40) ∧
    decode (.rx .p1Read true) [0x4C, 0x31] = .ok (.rspOther 0x4C 0x31) ∧
    decode (.rx .xRead true) [0x4D, 0x31] = .ok .rspM1 ∧ decode (.rx .xRead true) [0x4D, 0x32] = .ok .rspM2 ∧
    decode (.rx .xRead true) [0x4D, 0x33] = .ok .rspM3 ∧
    decode (.rx .xRead true) [0x58, 0x59] = .ok (.rspOther 0x58 0x59) ∧
    decode (.rx .authRead true) [0x52, 0x61] = .ok (.rspAuth 0x52 0x61) ∧
    decode (.rx .xRead true) [0x4D] = .error .noReply := by decide

/-- The ILLEGAL commands of 95_test_vectors.md section 5, and K21. -/
theorem test_decode_illegal :
    decode .host [0x00] = .error (.opcode 0x00) ∧ decode .host [0x0E] = .error (.opcode 0x0E) ∧
    decode .host [0x15] = .error (.opcode 0x15) ∧ decode .host [0x24] = .error (.opcode 0x24) ∧
    decode .host [0x31] = .error (.opcode 0x31) ∧ decode .host [0x01, 0x02] = .error (.frameSelect 0x02) ∧
    decode .host [0x20, 0x04, 0x00, 0x01, 0x00, 0x00, 0x00, 0x00] = .error (.user 0x04) ∧
    decode .host [0x22, 0x10, 0x00, 0x00, 0x00, 0x00] = .error (.mustBeZero 0x10) ∧
    decode .host [0x30, 0x1B] = .error (.register 0x1B) ∧
    decode .host [0x02, 0x00, 0x01, 0x04, 0x00, 0x00] = .error (.reprTag 0x04) ∧
    decode .host [0x02, 0x00, 0x03, 0x01, 0x00, 0x00] = .error (.mustBeZero 0x03) ∧
    decode .host [0x08, 0x00, 0x04] = .error (.format 0x04) ∧
    decode .host [0x02, 0x00, 0x01, 0x01, 0x00, 0x02, 0x4D] = .error .reprLength := by decide

/-- Words of spec/opcode_table.json, numbered as it numbers them. -/
theorem test_tableWords :
    decodeTableWord 8 0x22 = some (.readData false 0 0) ∧ decodeTableWord 8 0x07 = some (.prepare .txf none none) ∧
    decodeTableWord 72 0x52610300007B01310D = some .raPlumber ∧ decodeTableWord 56 0x4D33010100820D = some .m3Req ∧
    decodeTableWord 16 0x4D31 = some .rspM1 ∧ decodeTableWord 8 0x0E = none := by decide

/-! ### The codec -/

/-- 40_codec.md R124. -/
theorem test_fnew : (cmd stateK8 [0x01, 0x00]).map (fun t => (t.txf, t.responseBytes)) = some (.fresh, [0x00]) := by decide

/-- K3. -/
theorem test_setHeader_oneByte :
    (cmd stateK8 [0x02, 0x00, 0x01, 0x01, 0x00, 0x01, 0x41]).map (fun t => (t.txf.hdr, t.txf.valid, t.responseBytes)) =
      some (some [0x41], false, [0x00]) := by decide

/-- K5. -/
theorem test_setHeader_integer :
    (cmd stateK8 [0x02, 0x00, 0x01, 0x00, 0x00, 0x02, 0x4D, 0x41]).map (fun t => (t.txf, t.responseBytes)) =
      some (frameK8, [0x10]) := by decide

/-- K6a, K6b. -/
theorem test_setDataSize :
    (cmd stateK6 [0x03, 0x00, 0x01, 0x00, 0x00, 0x01, 0x02]).map (fun t => (t.txf.size, t.responseBytes)) =
      some (some 1, [0x11]) ∧
    (cmd stateK6 [0x03, 0x00, 0x00, 0x00, 0x00, 0x01, 0x02]).map (fun t => (t.txf.size, t.responseBytes)) =
      some (some 2, [0x00]) := by decide

/-- K6e: the size 256 does not fit. -/
theorem test_setDataSize_refused :
    (cmd State.reset [0x03, 0x00, 0x01, 0x00, 0x00, 0x02, 0x01, 0x00]).map (fun t => (t.txf, t.responseBytes)) =
      some (.fresh, [0x40]) := by decide

/-- K6. -/
theorem test_setData :
    (cmd State.reset [0x04, 0x00, 0x01, 0x03, 0x00, 0x01, 0x01]).map (fun t => (t.txf.data, t.txf.size, t.responseBytes)) =
      some (some [0x01], some 1, [0x00]) := by decide

/-- K14's frame: the size byte 1 counts in the sum beside two data bytes. -/
theorem test_setChecksum :
    (cmd { State.reset with txf := ⟨some [0x4D, 0x41], some 1, some [0x01, 0x02], none, true, false⟩ } [0x05, 0x00]).map
        (fun t => (t.txf.csum, t.txf.csumExt, t.responseBytes)) = some (some 0x0092, false, [0x00]) := by decide

/-- K12. -/
theorem test_setChecksumV_mismatch :
    (cmd stateK8 [0x06, 0x00, 0x01, 0x01, 0x00, 0x02, 0x00, 0x91]).map
        (fun t => (t.txf.csum, t.txf.csumExt, t.txf.valid, t.log)) =
      some (some 0x0091, true, false, [.wCsumMismatch]) := by decide

/-- K12c. -/
theorem test_setChecksumV_length :
    (cmd stateK8 [0x06, 0x00, 0x01, 0x01, 0x00, 0x01, 0x90]).map (fun t => (t.txf.csum, t.txf.valid, t.log, t.responseBytes)) =
      some (some 0x0090, false, [.wCsumLen], [0x00]) := by decide

/-- K8. -/
theorem test_prepare :
    (cmd State.reset [0x07, 0x00, 0x03, 0x01, 0x00, 0x02, 0x4D, 0x41, 0x01, 0x00, 0x01, 0x01]).map (fun t => t.txf) =
      some frameK8 := by decide

/-- K10a. -/
theorem test_prepare_typeMismatch :
    (cmd State.reset [0x07, 0x00, 0x03, 0x00, 0x00, 0x01, 0x01, 0x01, 0x00, 0x01, 0x01]).map
        (fun t => (t.txf, t.responseBytes)) = some (.fresh, [0x10]) := by decide

/-- K16b. -/
theorem test_getHeader :
    (cmd stateK8 [0x08, 0x00, 0x02]).map (fun t => t.responseBytes) =
      some [0x00, 0x02, 0x00, 0x04, 0x34, 0x44, 0x34, 0x31] := by decide

/-- K19. -/
theorem test_getData_unset :
    (cmd stateK8 [0x09, 0x01, 0x01]).map (fun t => t.responseBytes) = some [0x00, 0xFF, 0x00, 0x00] := by decide

/-- K17. -/
theorem test_getDataSize :
    (cmd stateK8 [0x0A, 0x00, 0x00]).map (fun t => t.responseBytes) = some [0x00, 0x00, 0x00, 0x01, 0x01] := by decide

/-- K18. -/
theorem test_getChecksum :
    (cmd stateK8 [0x0B, 0x00, 0x02]).map (fun t => t.responseBytes) =
      some [0x00, 0x02, 0x00, 0x04, 0x30, 0x30, 0x39, 0x30] := by decide

/-- K13: a stale checksum, the frame still marked valid. -/
theorem test_getRaw :
    (cmd { stateK8 with txf := { frameK8 with data := some [0x02] } } [0x0C, 0x00]).map (fun t => (t.responseBytes, t.log)) =
      some ([0x00, 0x02, 0x00, 0x06, 0x4D, 0x41, 0x01, 0x02, 0x00, 0x90], [.wRawReverify]) := by decide

/-- K20. -/
theorem test_getHex :
    (cmd stateK8 [0x0D, 0x00]).map (fun t => t.responseBytes) =
      some [0x00, 0x00, 0x0C, 0x34, 0x44, 0x34, 0x31, 0x30, 0x31, 0x30, 0x31, 0x30, 0x30, 0x39, 0x30] := by decide

/-- K2b, K2c, K2d: the largest sum that does not wrap, the smallest that does, the largest of all. -/
theorem test_checksum_wrap :
    checksum [0xFF, 0xFF] 255 (List.replicate 254 0xFF ++ [0x00]) = 0xFFFF ∧
    checksum [0xFF, 0xFF] 255 (List.replicate 254 0xFF ++ [0x01]) = 0x0000 ∧
    checksum [0xFF, 0xFF] 255 (List.replicate 255 0xFF) = 0x00FE := by
  simp only [checksum, sumBytes, List.map_append, List.map_replicate, List.sum_append, List.sum_replicate]
  decide

/-! ### The transport -/

/-- 41_transport.md R160. -/
theorem test_open : (cmd State.reset [0x10]).map (fun t => (t.portOpen, t.responseBytes)) = some (true, [0x00]) := by decide

/-- T23: a one-byte header is sent all the same. -/
theorem test_write :
    (cmd { State.reset with portOpen := true, txf := ⟨some [0x41], some 1, some [0x01], some 0x0043, false, false⟩ }
        [0x11, 0x00]).map (fun t => (t.tx, t.log, t.responseBytes)) =
      some ([0x41, 0x01, 0x01, 0x00, 0x43, 0x0D], [.wRawInvalid], [0x00]) := by decide

/-- T9: the far end appended a terminator. -/
theorem test_read_terminator :
    (cmd (seqAt .preinit .idle [⟨0x4D, [0x41, 0x01, 0x01, 0x00, 0x90, 0x0D]⟩]) [0x12]).map
        (fun t => (t.rxf, t.responseBytes, t.rxbufN)) =
      some (⟨some [0x4D, 0x41], some 1, none, none, false, false⟩, [0x20, 0x0C], 7) := by decide

/-- T6. -/
theorem test_read_good :
    (cmd (seqAt .preinit .idle [⟨0x4D, [0x41, 0x01, 0x01, 0x00, 0x90]⟩]) [0x12]).map (fun t => (t.rxf, t.responseBytes)) =
      some (⟨some [0x4D, 0x41], some 1, some [0x01], some 0x0090, true, true⟩, [0x00]) := by decide

/-- 41_transport.md R166: bytes still unread are lost. -/
theorem test_close :
    (cmd (seqAt .preinit .idle [burstT5a]) [0x13]).map (fun t => (t.portOpen, t.rxPending, t.responseBytes)) =
      some (false, [], [0x00]) := by decide

/-- T26. -/
theorem test_pollRx :
    (cmd (seqAt .preinit .idle [burstT5a]) [0x14]).map (fun t => (t.rxPending, t.responseBytes)) =
      some ([burstT5a], [0x00, 0x01]) := by decide

/-! ### The sequencer -/

/-- 42_sequencer.md R190. -/
theorem test_runAuth :
    (cmd State.reset [0x20, 0x03, 0x01, 0x02, 0x00, 0x00, 0x13, 0x88]).map
        (fun t => (t.position, t.user, t.maxRetry, t.retryWait)) =
      some ((.login, .authSend), .service, 258, 5000) := by decide

/-- Q2. -/
theorem test_runAuth_refused :
    (cmd (seqAt .login .idle []) [0x20, 0x00, 0x00, 0x03, 0x00, 0x00, 0x00, 0x00]).map
        (fun t => (t.position, t.responseBytes)) = some ((.login, .idle), [0x40]) := by decide

/-- 42_sequencer.md R195. -/
theorem test_runInit :
    (cmd (seqAt .login .idle []) [0x21]).map (fun t => (t.position, t.probeHdr, t.responses)) =
      some ((.init, .p1Send), ⟨0x4D, some 0x41⟩, []) := by decide

/-- 42_sequencer.md R215. -/
theorem test_readData :
    (cmd { seqAt .xchg .idle [] with toggle := true, cycle := 9 } [0x22, 0x0B, 0x00, 0x00, 0x07, 0xD0]).map
        (fun t => (t.position, t.ufc, t.sinkMask, t.pollInt, t.toggle, t.cycle)) =
      some ((.xchg, .xSend), true, 5, 2000, false, 0) := by decide

/-- Q11. -/
theorem test_stop_sleep :
    (cmd { seqAt .xchg .xSleep [] with cycle := 4 } [0x23]).map
        (fun t => (t.position, t.portOpen, t.responseBytes, t.cycle)) =
      some ((.preinit, .idle), false, [0x00, 0x00], 4) := by decide

/-- Q11a. -/
theorem test_stop_held :
    (cmd (seqAt .xchg .xRead []) [0x23]).map (fun t => (t.position, t.stopPending, t.responses)) =
      some ((.xchg, .xRead), true, []) := by decide

/-- 10_state.md R42: a header of two bytes, with its length above it; an unset timestamp. -/
theorem test_rdReg :
    (cmd State.reset [0x30, 0x0C]).map (fun t => t.responseBytes) = some [0x00, 0, 0, 0, 0, 0, 0x02, 0x4D, 0x41] ∧
    (cmd State.reset [0x30, 0x0F]).map (fun t => t.responseBytes) =
      some [0x00, 0xFF, 0xFF, 0xFF, 0xFF, 0xFF, 0xFF, 0xFF, 0xFF] := by decide

/-! ### Request frames: the bytes of 43_wire_frames.md, at their positions -/

theorem test_raPlumber :
    (nextOf (step (seqAt .login .authSend []))).map (fun t => (t.tx, t.upc, t.attempts)) =
      some ([0x52, 0x61, 0x03, 0x00, 0x00, 0x7B, 0x01, 0x31, 0x0D], .authRead, 1) := by decide

theorem test_raNormal :
    (nextOf (step { seqAt .login .authSend [] with user := .normal })).map (fun t => t.tx) =
      some [0x52, 0x61, 0x03, 0x00, 0x00, 0x01, 0x00, 0xB7, 0x0D] := by decide

theorem test_raNormalAlt :
    (nextOf (step { seqAt .login .authSend [] with user := .normalAlt })).map (fun t => t.tx) =
      some [0x52, 0x61, 0x03, 0x00, 0x00, 0xF3, 0x01, 0xA9, 0x0D] := by decide

theorem test_raService :
    (nextOf (step { seqAt .login .authSend [] with user := .service })).map (fun t => t.tx) =
      some [0x52, 0x61, 0x03, 0x00, 0xFF, 0xF9, 0x02, 0xAE, 0x0D] := by decide

theorem test_maProbe :
    (nextOf (step (seqAt .init .p1Send []))).map (fun t => (t.tx, t.upc, t.log)) =
      some ([0x4D, 0x41, 0x01, 0x01, 0x00, 0x90, 0x0D], .p1Read, []) := by decide

/-- Q3c. -/
theorem test_echoProbe_oneByte :
    (nextOf (step { seqAt .init .p1Send [] with probeHdr := ⟨0x4D, none⟩ })).map (fun t => (t.tx, t.log)) =
      some ([0x4D, 0x01, 0x01, 0x00, 0x4F, 0x0D], [.wRawInvalid]) := by decide

theorem test_echoProbe :
    (nextOf (step { seqAt .init .p1Send [] with probeHdr := ⟨0x41, some 0x10⟩ })).map (fun t => t.tx) =
      some [0x41, 0x10, 0x01, 0x01, 0x00, 0x53, 0x0D] := by decide

theorem test_m2Probe :
    (nextOf (step (seqAt .postInit .p2Send []))).map (fun t => (t.tx, t.upc, t.burst, t.p4Try)) =
      some ([0x4D, 0x32, 0x01, 0x01, 0x00, 0x81, 0x0D], .p2Check, 1, 0) ∧
    (nextOf (step (seqAt .postInit .p4Send []))).map (fun t => (t.tx, t.upc, t.burst, t.p4Try)) =
      some ([0x4D, 0x32, 0x01, 0x01, 0x00, 0x81, 0x0D], .p4Read, 0, 1) := by decide

theorem test_rbAck :
    (nextOf (step (seqAt .postInit .p3Send []))).map (fun t => (t.tx, t.upc)) =
      some ([0x52, 0x62, 0x03, 0x00, 0x00, 0x01, 0x00, 0xB8, 0x0D], .p3Read) := by decide

/-- Q7's first request. -/
theorem test_m1Req :
    (nextOf (step (seqAt .xchg .xSend []))).map (fun t => (t.tx, t.upc, t.toggle)) =
      some ([0x4D, 0x31, 0x01, 0x01, 0x00, 0x80, 0x0D], .xRead, true) := by decide

/-- Q7's second request. -/
theorem test_m2Req :
    (nextOf (step { seqAt .xchg .xSend [] with toggle := true, lastHdr := some ⟨0x4D, some 0x31⟩ })).map
        (fun t => (t.tx, t.toggle)) = some ([0x4D, 0x32, 0x01, 0x01, 0x00, 0x81, 0x0D], false) := by decide

/-- Q8's third request. -/
theorem test_m3Req :
    (nextOf (step { seqAt .xchg .xSend [] with toggle := true, lastHdr := some ⟨0x4D, some 0x33⟩ })).map
        (fun t => (t.tx, t.toggle)) = some ([0x4D, 0x33, 0x01, 0x01, 0x00, 0x82, 0x0D], true) := by decide

/-! ### Replies -/

/-- Q1. -/
theorem test_rspAuth :
    (nextOf (step (seqAt .login .authRead [⟨0x52, [0x61, 0x01, 0x00, 0x00, 0xB4]⟩]))).map
        (fun t => (t.position, t.responseBytes)) = some ((.login, .idle), [0x00]) := by decide

/-- Q3a: a salvaged header of a two-byte burst ends phase 1. -/
theorem test_rspMDigit :
    (nextOf (step (seqAt .init .p1Read [⟨0x4D, [0x3F]⟩]))).map (fun t => (t.position, t.probeHdr, t.log)) =
      some ((.postInit, .p2Send), ⟨0x4D, some 0x3F⟩, [.eInitSalvage]) := by decide

/-- Q10a: the checksum fails, so only the flat-file sink gets the record. -/
theorem test_rspM1 :
    (nextOf (step { seqAt .xchg .xRead [⟨0x4D, [0x31, 0x04, 0x00, 0x64, 0x01, 0x2C, 0x01, 0x12]⟩] with
        ufc := true, sinkMask := 7, ts := some 100 })).map (fun t => (t.sinks, t.upc)) =
      some ([.file 100 .invalid ("4D31040064012C0112".toList.map fun c => BitVec.ofNat 8 c.toNat)], .xSleep) := by decide

/-- Q10c. -/
theorem test_rspM1_noTimestamp :
    (nextOf (step { seqAt .xchg .xRead [⟨0x4D, [0x31, 0x04, 0x00, 0x64, 0x01, 0x2C, 0x01, 0x13]⟩] with
        ufc := true, sinkMask := 7 })).map (fun t => (t.sinks, t.log)) = some ([], [.wNoTimestamp]) := by decide

/-- Q9d. -/
theorem test_rspM2 :
    (nextOf (step (seqAt .xchg .xRead
        [⟨0x4D, [0x32, 0x07, 0x1A, 0x02, 0x0B, 0x0A, 0x0E, 0x1E, 0x05, 0x00, 0xE8]⟩]))).map
        (fun t => (t.ts, t.upc, t.lastHdr, t.log)) = some (none, .xSleep, some ⟨0x4D, some 0x32⟩, []) := by decide

/-- Q9c. -/
theorem test_rspM2_short :
    (nextOf (step { seqAt .xchg .xRead [⟨0x4D, [0x32, 0x01, 0x00, 0x00, 0x80]⟩] with ufc := true, ts := some 5 })).map
        (fun t => (t.ts, t.log)) = some (some 5, [.wClockDecode]) := by decide

/-- Q8, the reply at cycle 2. -/
theorem test_rspM3 :
    (nextOf (step (seqAt .xchg .xRead [⟨0x4D, [0x33, 0x00, 0x00, 0x80]⟩]))).map (fun t => (t.lastHdr, t.upc, t.sinks)) =
      some (some ⟨0x4D, some 0x33⟩, .xSleep, []) := by decide

/-- Q3: the first reply, `41 10`, is echoed; Q10e: a truncated reply in the loop is terminal. -/
theorem test_rspOther :
    (nextOf (step (seqAt .init .p1Read [⟨0x41, [0x10, 0x00, 0x00, 0x51]⟩]))).map (fun t => (t.position, t.probeHdr)) =
      some ((.init, .p1Send), ⟨0x41, some 0x10⟩) ∧
    (nextOf (step { seqAt .xchg .xRead [⟨0x4D, [0x31, 0x04]⟩] with attempts := 3 })).map
        (fun t => (t.upc, t.err, t.responseBytes, t.log)) =
      some (.halt, ⟨.commError, .xchg, 3, some .sizeBoundary⟩, [0x20, 0x0B], [.eTerminal]) := by decide

/-- Q3d: silence in phase 1. -/
theorem test_initTimeout :
    (nextOf (step { seqAt .init .p1Read [] with attempts := 1 })).map (fun t => (t.upc, t.responseBytes)) =
      some (.halt, [0x30, 0x02, 0x02, 0x00, 0x00, 0x00, 0x01]) := by decide

/-- Q1c: the only attempt has failed. -/
theorem test_authExhausted :
    (nextOf (step { seqAt .login .authSleep [] with attempts := 1 })).map (fun t => (t.upc, t.responseBytes, t.portOpen)) =
      some (.halt, [0x30, 0x01, 0x01, 0x00, 0x00, 0x00, 0x01], true) := by decide

/-! ### The spec's defaults for the two parameters (00_scope.md R11) -/

/-- Q9, Q9a, Q9b. -/
theorem test_clock_default :
    clockOf defaultToEpoch [0x1A, 0x02, 0x0B, 0x0A, 0x0E, 0x1E, 0x05] = some 1794321005 ∧
    clockOf defaultToEpoch [0x00, 0x06, 0x01, 0x01, 0x00, 0x00, 0x00] = some 946684800 ∧
    clockOf defaultToEpoch [0x1A, 0x00, 0x02, 0x1E, 0x00, 0x00, 0x00] = none := by decide

/-- Q10. -/
theorem test_route_default :
    routeRecords defaultDecodeFields 7
        (assemble [0x4D, 0x31, 0x04, 0x00, 0x64, 0x01, 0x2C, 0x01, 0x13]).frame 100 =
      [.kv 100 ("4D31040064012C0113".toList.map fun c => BitVec.ofNat 8 c.toNat),
        .file 100 .valid ("4D31040064012C0113".toList.map fun c => BitVec.ofNat 8 c.toNat),
        .tab [100, 0, 100, 1, 44]] := by decide

/-! ### Witnesses: for every statement with hypotheses, values that meet those of each clause -/

/-- What a step answers, as a state; the state itself where it answers none. -/
def after (s : State) : State := (nextOf (step s)).getD s

/-- A good reply of header 52 61. -/
def burstAuth : Burst := ⟨0x52, [0x61, 0x01, 0x00, 0x00, 0xB4]⟩

/-- The reply of vector Q10. -/
def burstQ10 : Burst := ⟨0x4D, [0x31, 0x04, 0x00, 0x64, 0x01, 0x2C, 0x01, 0x13]⟩

/-- The reply of vector Q10a. -/
def burstQ10a : Burst := ⟨0x4D, [0x31, 0x04, 0x00, 0x64, 0x01, 0x2C, 0x01, 0x12]⟩

/-- The data-exchange loop as phase 2 leaves its counter, reading with these bursts waiting. -/
def exchanging (bs : List Burst) : State := { seqAt .xchg .xRead bs with burst := 33, p4Try := 1, attempts := 1 }

theorem test_witness_DecodeEncode :
    Instr.wf (.rdReg 26) = true ∧ Instr.wf (.echoProbe 0xFF (some 0xFF)) = true ∧
      Instr.wf (.setData .txf true ⟨.hexDigits, []⟩) = true ∧
      ∀ r : Operand, r.wf = true → Instr.wf (.prepare .txf none (some r)) = true :=
  ⟨by decide, by decide, by decide, fun r h => by simp [Instr.wf, Operand.optWf, h]⟩

theorem test_witness_DecodedIsEncoding :
    decode .host [0x30, 0x1A] = .ok (.rdReg 26) ∧ decode (.rx .p1Read false) [0x4D, 0x3F] = .ok (.rspMDigit 0xF) := by decide

theorem test_witness_IllegalEncodings :
    (decode .host [] = .error .empty ∧ (hosted State.reset []).readReady = false) ∧
    ((0x15 : Byte).toNat = 0x15 ∧ (0x1F : Byte).toNat ≤ 0x1F ∧ 0x24 ≤ (0x24 : Byte).toNat ∧ (0x2F : Byte).toNat ≤ 0x2F ∧
      0x31 ≤ (0x31 : Byte).toNat ∧ (0xFF : Byte).toNat ≤ 0xFF) ∧
    ((0x11 : Byte) ∈ ([0x01, 0x02, 0x03, 0x04, 0x05, 0x06, 0x07, 0x08, 0x09, 0x0A, 0x0B, 0x0C, 0x0D, 0x11] : Bytes) ∧
      2 ≤ (2 : Byte).toNat) ∧
    ((0x0B : Byte) ∈ ([0x08, 0x09, 0x0A, 0x0B] : Bytes) ∧ 4 ≤ (4 : Byte).toNat) ∧ 4 ≤ (0xFF : Byte).toNat ∧
    ((0x06 : Byte) ∈ ([0x02, 0x03, 0x04, 0x06] : Bytes) ∧ 2 ≤ (2 : Byte).toNat) ∧ 16 ≤ (16 : Byte).toNat ∧
    ([] : Bytes).length < 256 * (0 : Byte).toNat + (1 : Byte).toNat ∧ 1 ≤ (1 : Byte).toNat ∧
    Operand.wf ⟨.rawBytes, [0x4D]⟩ = true ∧ 27 ≤ (27 : Byte).toNat := by decide

theorem test_witness_StepRunsHostCommand :
    Instr.wf (.rdReg 26) = true ∧ Instr.kind (.rdReg 26) = .hostOperation ∧
      (hosted (seqAt .xchg .xRead []) [0x30, 0x1A]).readReady = false ∧
      (hosted (seqAt .xchg .xRead []) [0x30, 0x1A]).inputs = [.host (encode (.rdReg 26))] := by decide

theorem test_witness_FetchIsDecode :
    fetchRequest (seqAt .xchg .xSend []) = some .m1Req ∧
    ((seqAt .xchg .xRead [burstQ10]).rxPending = [burstQ10] ∧
      burstQ10.rest = 0x31 :: [0x04, 0x00, 0x64, 0x01, 0x2C, 0x01, 0x13] ∧ isReading .xRead = true) ∧
    (seqAt .postInit .p2Check [burstQ10]).upc = .p2Check := by decide

theorem test_witness_StepRunsWireRow :
    ((seqAt .init .p1Send []).hostRead = false ∧ fetchWire (seqAt .init .p1Send []) = some .maProbe ∧
      (seqAt .init .p1Send []).inputs = []) ∧
    (fetchWire (hosted (seqAt .login .authRead [burstAuth]) [0x23]) = some (.rspAuth 0x52 0x61) ∧
      (hosted (seqAt .login .authRead [burstAuth]) [0x23]).readReady = true ∧
      (hosted (seqAt .login .authRead [burstAuth]) [0x23]).inputs = [.host [0x23]]) ∧
    (fetchWire { seqAt .xchg .xSend [] with inputs := [.elapse] } = some .m1Req ∧
      ({ seqAt .xchg .xSend [] with inputs := [.elapse] } : State).readReady = false) := by decide

theorem test_witness_BurstArrives :
    (({ seqAt .xchg .xRead [] with inputs := [.burst burstQ10] } : State).readReady = false ∧
      ({ seqAt .xchg .xRead [] with inputs := [.burst burstQ10] } : State).portOpen = true) ∧
    (({ State.reset with inputs := [.burst burstQ10] } : State).readReady = false ∧
      ({ State.reset with inputs := [.burst burstQ10] } : State).portOpen = false) := by decide

theorem test_witness_ResetValues :
    ({ exchanging [] with inputs := [.reset, .elapse] } : State).inputs = .reset :: [.elapse] := rfl

theorem test_witness_ChecksumAndCounters :
    List.Perm ([0x41, 0x4D] : Bytes) [0x4D, 0x41] ∧ ([0xFF, 0xFF] : Bytes).length = 2 ∧
      (List.replicate 255 (0xFF : Byte)).length ≤ 255 := by
  refine ⟨List.Perm.swap _ _ _, rfl, ?_⟩
  simp only [List.length_replicate]
  decide

theorem test_witness_OperandConversions :
    unbe [] ≤ 255 ∧ unbe [0xFF] ≤ 255 ∧ unbe [0x00, 0xFF] ≤ 255 ∧ 255 < unbe [0x01, 0x00] ∧ ([] : Bytes).length ≠ 1 ∧
      ([0x00, 0x00] : Bytes).length ≠ 1 ∧ (0x46 : Byte) ∈ hexOf [0xF0] := by decide

/-- The hypotheses that the host's direct operations share. -/
theorem test_witness_FnewResult : isRunning stateK8.upc = false ∧ stateK8.hostRead = false ∧
    isRunning (seqAt .xchg .halt []).upc = false := by decide

theorem test_witness_SetHeaderResult :
    (isRunning stateK8.upc = false ∧ stateK8.hostRead = false) ∧
    (decodeBytes ⟨.hexDigits, [0x34, 0x64]⟩ = some [0x4D] ∧ decodeBytes ⟨.rawBytes, []⟩ = some []) ∧
    decodeBytes ⟨.integer, [0x4D, 0x41]⟩ = none ∧ decodeBytes ⟨.hexDigits, [0x34]⟩ = none := by decide

/-- The longest operand that fits a field, and the shortest that does not (`SETHEADER`, `SETDATA`, `PREPARE`). -/
theorem test_witness_fieldCaps :
    (decodeBytes ⟨.rawBytes, List.replicate 255 0⟩ = some (List.replicate 255 0) ∧
      (List.replicate 255 (0 : Byte)).length ≤ 255) ∧
    (decodeBytes ⟨.integerList, List.replicate 256 0⟩ = some (List.replicate 256 0) ∧
      255 < (List.replicate 256 (0 : Byte)).length) := by
  refine ⟨⟨by simp only [decodeBytes], ?_⟩, ⟨by simp only [decodeBytes], ?_⟩⟩ <;> simp only [List.length_replicate] <;> decide

theorem test_witness_SetDataSizeResult :
    (isRunning stateK6.upc = false ∧ stateK6.hostRead = false) ∧
    (decodeSize ⟨.integer, [0x01]⟩ = .value 1 ∧ (stateK6.frame .txf).data = some [0x01]) ∧
    (decodeSize ⟨.rawBytes, [0xFF]⟩ = .value 255 ∧ ([0x01] : Bytes).length ≠ (255 : Byte).toNat) ∧
    decodeSize ⟨.hexDigits, [0x30, 0x31]⟩ = .typeMismatch ∧ decodeSize ⟨.integer, [0x01, 0x00]⟩ = .refused := by decide

theorem test_witness_SetDataResult :
    (isRunning State.reset.upc = false ∧ State.reset.hostRead = false) ∧
    (decodeBytes ⟨.rawBytes, []⟩ = some [] ∧ (State.reset.frame .txf).size = none) ∧
    ((stateK6.frame .txf).size = some 1 ∧ (1 : Byte).toNat = ([0x02] : Bytes).length) ∧
    (1 : Byte).toNat ≠ ([] : Bytes).length ∧ decodeBytes ⟨.hexDigits, [0x34, 0x47]⟩ = none := by decide

theorem test_witness_ChecksumSetters :
    (isRunning stateK8.upc = false ∧ stateK8.hostRead = false) ∧
    ((stateK8.frame .txf).hdr = some [0x4D, 0x41] ∧ (stateK8.frame .txf).size = some 1 ∧
      (stateK8.frame .txf).data = some [0x01] ∧ (stateK6.frame .txf).hdr = none) ∧
    (decodeBytes ⟨.integer, [0x90]⟩ = none ∧ decodeBytes ⟨.rawBytes, [0x90]⟩ = some [0x90] ∧
      ([0x90] : Bytes).length ≠ 2 ∧ decodeBytes ⟨.rawBytes, [0x00, 0x90]⟩ = some [0x00, 0x90]) ∧
    256 * (0x00 : Byte).toNat + (0x90 : Byte).toNat = (checksum [0x4D, 0x41] 1 [0x01]).toNat ∧
    256 * (0x01 : Byte).toNat + (0x90 : Byte).toNat ≠ (checksum [0x4D, 0x41] 1 [0x01]).toNat := by decide

theorem test_witness_PrepareResult :
    (isRunning stateK6.upc = false ∧ stateK6.hostRead = false) ∧
    ((some (⟨.rawBytes, [0x4D, 0x41]⟩ : Operand)).map decodeBytes = (some [0x4D, 0x41]).map some ∧
      (none : Option Operand).map decodeBytes = (none : Option Bytes).map some) ∧
    ((some [0x4D, 0x41]).or (stateK6.frame .txf).hdr = some [0x4D, 0x41] ∧
      (none : Option Bytes).or (stateK6.frame .txf).data = some [0x01]) ∧
    (none : Option Bytes).or (stateK6.frame .txf).hdr = none ∧
    (some (⟨.integer, [0x01]⟩ : Operand)).map decodeBytes = some none := by decide

theorem test_witness_AccessorResults :
    (isRunning stateK8.upc = false ∧ stateK8.hostRead = false) ∧
    ((stateK8.frame .txf).hdr = some [0x4D, 0x41] ∧ (stateK8.frame .txf).data = some [0x01] ∧
      (stateK8.frame .txf).size = some 1 ∧ (stateK8.frame .txf).csum = some 0x0090) ∧
    ((stateK8.frame .rxf).hdr = none ∧ (stateK8.frame .rxf).data = none ∧ (stateK8.frame .rxf).size = none ∧
      (stateK8.frame .rxf).csum = none) := by decide

theorem test_witness_ImageResults :
    (isRunning stateK8.upc = false ∧ stateK8.hostRead = false) ∧
    ((stateK8.frame .txf).hdr = some [0x4D, 0x41] ∧ (stateK8.frame .txf).size = some 1 ∧
      (stateK8.frame .txf).data = some [0x01] ∧ (stateK8.frame .txf).csum = some 0x0090) ∧
    (stateK6.frame .txf).csum = none := by decide

theorem test_witness_CodecRoundTrip :
    ([0x4D, 0x41] : Bytes).length = 2 ∧ ([] : Bytes).length ≤ 255 ∧ isRunning State.reset.upc = false ∧
    State.reset.hostRead = false ∧
    (isRunning (seqAt .preinit .idle [burstT5a]).upc = false ∧ (seqAt .preinit .idle [burstT5a]).hostRead = false ∧
      (seqAt .preinit .idle [burstT5a]).portOpen = true ∧ (seqAt .preinit .idle [burstT5a]).rxPending = [burstT5a] ∧
      burstT5a.bytes = [0x4D, 0x41, 0x00, 0x00, 0x8E]) := by decide

theorem test_witness_ChecksumFlipCaught :
    (assemble ([0x4D, 0x41, 0x01, 0x01] ++ [0x00, 0x90])).result = .ok ∧ (0x01 : Byte) ≠ 0x00 ∧ (0x91 : Byte) ≠ 0x90 := by
  decide

theorem test_witness_ReadOfBurst :
    (0x01 : Byte) ≠ 0 ∧ ([] : Bytes).length ≠ (0x01 : Byte).toNat ∧ ([] : Bytes).length = (0 : Byte).toNat ∧
      unbe [0x00, 0x90] ≠ (checksum [0x4D, 0x41] 1 [0x02]).toNat ∧
      unbe [0x00, 0x90] = (checksum [0x4D, 0x41] 1 [0x01]).toNat ∧ 261 ≤ (List.replicate 261 (0 : Byte)).length := by
  refine ⟨by decide, by decide, by decide, by decide, by decide, ?_⟩
  simp only [List.length_replicate, le_refl]

theorem test_witness_PortOperations :
    (isRunning State.reset.upc = false ∧ State.reset.hostRead = false ∧ State.reset.portOpen = false) ∧
    ((seqAt .preinit .idle []).portOpen = true ∧ (seqAt .preinit .idle []).rxPending = []) ∧
    (seqAt .preinit .idle [burstT5a]).rxPending ≠ [] := by decide

theorem test_witness_WriteResult :
    (isRunning stateK8.upc = false ∧ stateK8.hostRead = false ∧ stateK8.portOpen = false) ∧
    (({ stateK8 with portOpen := true } : State).frame .txf = frameK8 ∧ frameK8.hdr = some [0x4D, 0x41] ∧
      frameK8.size = some 1 ∧ frameK8.data = some [0x01] ∧ frameK8.csum = some 0x0090) := by decide

theorem test_witness_ReadResult :
    (isRunning State.reset.upc = false ∧ State.reset.hostRead = false ∧ State.reset.portOpen = false) ∧
    ((seqAt .preinit .idle [burstT5a]).rxPending = [burstT5a] ∧ burstResult burstT5a = .ok ∧
      burstResult ⟨0x4D, []⟩ = .err .headerBoundary) ∧
    (({ seqAt .preinit .idle [] with hostRead := true } : State).rxPending = [] ∧
      ({ seqAt .preinit .idle [] with hostRead := true } : State).stopPending = false ∧
      ({ seqAt .preinit .idle [] with hostRead := true } : State).inputs = []) ∧
    ({ seqAt .preinit .idle [] with hostRead := true, inputs := [.elapse] } : State).inputs = [.elapse] ∧
    (({ seqAt .preinit .idle [burstT5a] with hostRead := true, inputs := [.host [0x23]] } : State).inputs = [.host [0x23]] ∧
      ({ seqAt .preinit .idle [burstT5a] with hostRead := true } : State).rxPending = [burstT5a]) := by decide

theorem test_witness_RunAuthResult :
    (State.reset.hostRead = false ∧ State.reset.stage = .preinit ∧ State.reset.upc = .idle) ∧
      (seqAt .login .idle []).stage ≠ .preinit ∧ (seqAt .login .authRead []).upc ≠ .idle := by decide

theorem test_witness_RunInitAndReadData :
    ((seqAt .login .idle []).hostRead = false ∧ (seqAt .login .idle []).stage = .login ∧
      (seqAt .login .idle []).upc = .idle) ∧
    ((seqAt .xchg .idle []).hostRead = false ∧ (seqAt .xchg .idle []).stage = .xchg ∧ (seqAt .xchg .idle []).upc = .idle) ∧
    State.reset.stage ≠ .login ∧ State.reset.stage ≠ .xchg := by decide

theorem test_witness_StopResult :
    (State.reset.readInFlight = false ∧ isRunning State.reset.upc = false) ∧
    ((seqAt .xchg .xSleep []).readInFlight = false ∧ isRunning (seqAt .xchg .xSleep []).upc = true) ∧
    ((seqAt .postInit .p2Check []).readInFlight = false ∧ (seqAt .postInit .p2Check [burstT5a]).readInFlight = true) ∧
    ((seqAt .xchg .xRead []).readInFlight = true ∧ (seqAt .xchg .xRead []).stopPending = false) ∧
    (({ seqAt .xchg .xRead [] with stopPending := true } : State).readInFlight = true ∧
      ({ seqAt .xchg .xRead [] with stopPending := true } : State).stopPending = true) := by decide

theorem test_witness_HeldStopTaken :
    ({ exchanging [] with stopPending := true } : State).lineWf = true ∧
    ({ exchanging [] with stopPending := true } : State).readInFlight = true ∧
    ({ exchanging [] with stopPending := true } : State).inputs = [] ∧
    step { exchanging [] with stopPending := true } = .next (after { exchanging [] with stopPending := true }) ∧
    (({ exchanging [⟨0x4D, []⟩] with stopPending := true } : State).readReady = true ∧
      step { exchanging [⟨0x4D, []⟩] with stopPending := true } =
        .next (after { exchanging [⟨0x4D, []⟩] with stopPending := true })) := ⟨rfl, rfl, rfl, rfl, rfl, rfl⟩

theorem test_witness_RdRegResult : 27 ≤ (27 : Byte).toNat ∧ 27 ≤ (255 : Byte).toNat := by decide

theorem test_witness_BusyRefuses :
    Instr.kind (.write .txf) = .hostOperation ∧ Instr.write .txf ≠ .stop ∧ (∀ k, Instr.write .txf ≠ .rdReg k) ∧
      isRunning (seqAt .login .authSleep []).upc = true ∧
      ({ seqAt .preinit .idle [] with hostRead := true } : State).hostRead = true := by simp [Instr.kind, homeChannel, seqAt, isRunning]

theorem test_witness_AuthRequestsSent :
    (seqAt .login .authSend []).upc = .authSend ∧ (seqAt .login .authSend []).portOpen = true ∧
      (seqAt .login .authSend []).user = .plumber ∧
      ({ seqAt .login .authSend [] with user := .service } : State).user = .service := by decide

theorem test_witness_ProbesSent :
    (seqAt .init .p1Send []).upc = .p1Send ∧ (seqAt .init .p1Send []).portOpen = true ∧
      (seqAt .init .p1Send []).probeHdr = ⟨0x4D, some 0x41⟩ ∧ ¬((0x4D : Byte) = 0x4D ∧ (0x40 : Byte) = 0x41) ∧
      ({ seqAt .init .p1Send [] with probeHdr := ⟨0x4D, some 0x40⟩ } : State).probeHdr = ⟨0x4D, some 0x40⟩ ∧
      ({ seqAt .init .p1Send [] with probeHdr := ⟨0x4D, none⟩ } : State).probeHdr = ⟨0x4D, none⟩ := by decide

theorem test_witness_PhaseRequestsSent :
    (seqAt .postInit .p2Send []).portOpen = true ∧ (seqAt .postInit .p2Send []).upc = .p2Send ∧
      (seqAt .postInit .p4Send []).upc = .p4Send ∧ (seqAt .postInit .p3Send []).upc = .p3Send := by decide

theorem test_witness_ExchangeRequestsSent :
    (seqAt .xchg .xSend []).portOpen = true ∧ (seqAt .xchg .xSend []).upc = .xSend ∧
      ({ seqAt .xchg .xSend [] with lastHdr := some ⟨0x4D, some 0x33⟩ } : State).lastHdr = some ⟨0x4D, some 0x33⟩ ∧
      (seqAt .xchg .xSend []).lastHdr ≠ some ⟨0x4D, some 0x33⟩ ∧ (seqAt .xchg .xSend []).toggle = false ∧
      ({ seqAt .xchg .xSend [] with toggle := true } : State).toggle = true := by decide

theorem test_witness_RequestSendsItsBytes :
    Instr.kind .maProbe = .wireRequest ∧ exec .maProbe (seqAt .init .p1Send []) = .next (after (seqAt .init .p1Send [])) :=
  ⟨rfl, rfl⟩

theorem test_witness_WireRowStops :
    Instr.kind .maProbe ≠ .hostOperation ∧ fetchWire State.reset ≠ some .maProbe ∧
      (fetchWire { seqAt .init .p1Send [] with portOpen := false } = some .maProbe ∧
        ({ seqAt .init .p1Send [] with portOpen := false } : State).portOpen = false) := by decide

theorem test_witness_AuthAndMDigitReplies :
    ((seqAt .login .authRead [burstAuth]).upc = .authRead ∧ (seqAt .login .authRead [burstAuth]).portOpen = true ∧
      (seqAt .login .authRead [burstAuth]).rxPending = [burstAuth] ∧ burstAuth.rest = 0x61 :: [0x01, 0x00, 0x00, 0xB4] ∧
      burstResult burstAuth = .ok) ∧
    ((seqAt .init .p1Read [⟨0x4D, [0x3F]⟩]).upc = .p1Read ∧ (seqAt .init .p1Read [⟨0x4D, [0x3F]⟩]).portOpen = true ∧
      (⟨0x4D, [0x3F]⟩ : Burst).rest = [0x3#4 ++ 0xF#4]) := by decide

theorem test_witness_TelemetryReply :
    ((exchanging [burstQ10]).upc = .xRead ∧ (exchanging [burstQ10]).portOpen = true ∧
      (exchanging [burstQ10]).rxPending = [burstQ10] ∧ burstQ10.first = 0x4D ∧
      burstQ10.rest = 0x31 :: [0x04, 0x00, 0x64, 0x01, 0x2C, 0x01, 0x13] ∧ burstResult burstQ10 = .ok ∧
      burstResult burstQ10a = .err .checksumFailure) ∧
    ((exchanging [burstQ10]).ufc = false ∧
      Config.now 0 = Config.now (exchanging [burstQ10]).clockReads) ∧
    (({ exchanging [burstQ10] with ufc := true, ts := some 100 } : State).ts = some 100 ∧
      (100 : Int) = (100 : Word64).toInt) ∧
    ({ exchanging [burstQ10] with ufc := true } : State).ts = none :=
  ⟨by decide, ⟨rfl, rfl⟩, ⟨rfl, rfl⟩, rfl⟩

/-- Seven data bytes and six, the two sides of the clock's length test. -/
theorem test_witness_ClockReply :
    (exchanging [⟨0x4D, [0x32, 0x07, 0x1A, 0x02, 0x0B, 0x0A, 0x0E, 0x1E, 0x05, 0x00, 0xE8]⟩]).upc = .xRead ∧
    (⟨0x4D, [0x32, 0x07, 0x1A, 0x02, 0x0B, 0x0A, 0x0E, 0x1E, 0x05, 0x00, 0xE8]⟩ : Burst).bytes =
      [0x4D, 0x32, 0x07] ++ [0x1A, 0x02, 0x0B, 0x0A, 0x0E, 0x1E, 0x05] ++ [0x00, 0xE8] ∧
    ([0x1A, 0x02, 0x0B, 0x0A, 0x0E, 0x1E, 0x05] : Bytes).length = (0x07 : Byte).toNat ∧
    ({ exchanging [] with ufc := true } : State).ufc = true ∧ (exchanging []).ufc = false ∧
    ([0x1A, 0x02, 0x0B, 0x0A, 0x0E, 0x1E] : Bytes).length < 7 := by decide

theorem test_witness_OtherExchangeReply :
    ((exchanging [⟨0x4D, [0x33, 0x00, 0x00, 0x80]⟩]).upc = .xRead ∧
      (exchanging [⟨0x4D, [0x33, 0x00, 0x00, 0x80]⟩]).portOpen = true ∧
      burstResult ⟨0x4D, [0x33, 0x00, 0x00, 0x80]⟩ = .ok ∧
      burstResult ⟨0x4D, [0x33, 0x00, 0x00, 0x81]⟩ = .err .checksumFailure) ∧
    ¬((0x4D : Byte) = 0x4D ∧ ((0x34 : Byte) = 0x31 ∨ (0x34 : Byte) = 0x32 ∨ (0x34 : Byte) = 0x33)) := by decide

theorem test_witness_OtherReply :
    (burstResult ⟨0x52, [0x61]⟩ ≠ .ok ∧ (seqAt .login .authRead [⟨0x52, [0x61]⟩]).upc = .authRead ∧
      (seqAt .login .authRead [⟨0x52, [0x61]⟩]).portOpen = true) ∧
    (¬((0x4D : Byte) = 0x4D ∧ (0x40 : Byte) >>> 4 = 0x03) ∧ ¬((0x4E : Byte) = 0x4D ∧ (0x31 : Byte) >>> 4 = 0x03) ∧
      (seqAt .init .p1Read [⟨0x4D, [0x40]⟩]).upc = .p1Read) ∧
    (seqAt .postInit .p2Check [burstT5a]).upc = .p2Check ∧ (seqAt .postInit .p3Read [burstT5a]).upc = .p3Read ∧
    (seqAt .postInit .p4Read [burstT5a]).upc = .p4Read := by decide

/-- A burst of one byte at each reading position before the data exchange, the second clause of `OtherReply`. -/
theorem test_witness_OtherReply_oneByte :
    (seqAt .login .authRead [⟨0x52, []⟩]).portOpen = true ∧ (seqAt .login .authRead [⟨0x52, []⟩]).hostRead = false ∧
      (seqAt .login .authRead [⟨0x52, []⟩]).stopPending = false ∧ (seqAt .login .authRead [⟨0x52, []⟩]).inputs = [] ∧
      (seqAt .login .authRead [⟨0x52, []⟩]).upc = .authRead ∧ (seqAt .init .p1Read [⟨0xFF, []⟩]).upc = .p1Read ∧
      (seqAt .postInit .p2Check [⟨0x00, []⟩]).upc = .p2Check ∧ (seqAt .postInit .p3Read [⟨0x4D, []⟩]).upc = .p3Read ∧
      (seqAt .postInit .p4Read [⟨0x4D, []⟩]).upc = .p4Read := by decide

/-- Vector Q5a and program P5 of 95_test_vectors.md: one byte counts as a reply in phase 4, and as a failure in AUTH_READ. -/
theorem test_oneByteReply :
    ((after { seqAt .postInit .p4Read [⟨0x4D, []⟩] with p4Try := 20 }).position = (.xchg, .idle) ∧
      (after { seqAt .postInit .p4Read [⟨0x4D, []⟩] with p4Try := 20 }).log = [.eInitTolerated]) ∧
    (after (seqAt .login .authRead [⟨0x52, []⟩])).upc = .authSleep ∧
      (after (seqAt .login .authRead [⟨0x52, []⟩])).log = [.eAuthRetry] := by decide

theorem test_witness_WaitsEnd :
    (({ seqAt .login .authSleep [] with inputs := [.elapse], maxRetry := 2 } : State).hostRead = false ∧
      ({ seqAt .login .authSleep [] with inputs := [.elapse], maxRetry := 2 } : State).stopPending = false ∧
      (satInc (0 : Word16)).toNat < (2 : Word16).toNat ∧ (1 : Word16).toNat ≤ (satInc (0 : Word16)).toNat) ∧
    ({ seqAt .postInit .p2Wait [] with burst := 32 } : State).burst.toNat ≠ 33 ∧
    ({ seqAt .postInit .p2Wait [] with burst := 33 } : State).burst.toNat = 33 ∧
    (seqAt .postInit .p4Wait []).upc = .p4Wait ∧ (seqAt .xchg .xSleep []).upc = .xSleep ∧
    (seqAt .xchg .halt []).upc = .halt := by decide

theorem test_witness_SilenceByPosition :
    (({ seqAt .postInit .p4Read [] with inputs := [.elapse], p4Try := 19 } : State).p4Try.toNat < 20 ∧
      20 ≤ ({ seqAt .postInit .p4Read [] with inputs := [.elapse], p4Try := 20 } : State).p4Try.toNat ∧
      ({ seqAt .postInit .p4Read [] with inputs := [.elapse] } : State).hostRead = false ∧
      ({ seqAt .postInit .p4Read [] with inputs := [.elapse] } : State).stopPending = false ∧
      ({ seqAt .postInit .p4Read [] with inputs := [.elapse] } : State).portOpen = true ∧
      ({ seqAt .postInit .p4Read [] with inputs := [.elapse] } : State).rxPending = []) ∧
    (seqAt .login .authRead []).upc = .authRead ∧ (seqAt .init .p1Read []).upc = .p1Read ∧
    (seqAt .postInit .p2Check []).upc = .p2Check ∧ (seqAt .postInit .p3Read []).upc = .p3Read ∧
    (exchanging []).upc = .xRead := by decide

theorem test_witness_ExchangeErrorTerminal :
    (exchanging [⟨0x4D, []⟩]).upc = .xRead ∧ (exchanging [⟨0x4D, []⟩]).portOpen = true ∧
      (exchanging [⟨0x4D, []⟩]).hostRead = false ∧ (exchanging [⟨0x4D, []⟩]).stopPending = false ∧
      (exchanging [⟨0x4D, []⟩]).inputs = [] ∧ burstResult ⟨0x4D, []⟩ = .err .headerBoundary ∧
      burstResult ⟨0x4D, [0x31, 0x04]⟩ = .err .sizeBoundary ∧ CommCode.headerBoundary ≠ .checksumFailure := by decide

theorem test_witness_OneByteSalvaged :
    (seqAt .init .p1Read [⟨0x4D, []⟩]).upc = .p1Read ∧ (seqAt .init .p1Read [⟨0x4D, []⟩]).portOpen = true ∧
      (seqAt .init .p1Read [⟨0x4D, []⟩]).hostRead = false ∧ (seqAt .init .p1Read [⟨0x4D, []⟩]).stopPending = false ∧
      (seqAt .init .p1Read [⟨0x4D, []⟩]).inputs = [] := by decide

/-- A read of silence in the data-exchange loop, which ends in HALT. -/
theorem test_witness_OnlyListedTransitions :
    step (exchanging []) = .next (after (exchanging [])) ∧ legalPosition (exchanging []).position = true ∧
      (after (exchanging [])).position ≠ (exchanging []).position := ⟨rfl, by decide, by decide⟩

theorem test_witness_ErrorRecordRule :
    step (exchanging []) = .next (after (exchanging [])) ∧ (after (exchanging [])).err ≠ (exchanging []).err ∧
      legalPosition (exchanging []).position = true ∧ (exchanging []).err.wf = true := ⟨rfl, by decide, by decide, by decide⟩

theorem test_witness_LineStaysLegal :
    step (exchanging [burstQ10]) = .next (after (exchanging [burstQ10])) ∧ (exchanging [burstQ10]).lineWf = true ∧
      (exchanging [burstQ10]).stopWf = true ∧ ({ exchanging [] with stopPending := true } : State).stopWf = true :=
  ⟨rfl, rfl, rfl, rfl⟩

theorem test_witness_CountersStayInRange :
    step (exchanging []) = .next (after (exchanging [])) ∧ legalPosition (exchanging []).position = true ∧
      (exchanging []).countersWf = true := ⟨rfl, by decide, by decide⟩

theorem test_witness_OutputsOnlyGrow :
    step (exchanging []) = .next (after (exchanging [])) ∧ (exchanging []).inputs = [] ∧
      (after (exchanging [])).responses ≠ (exchanging []).responses := ⟨rfl, rfl, by decide⟩

theorem test_witness_StorageStaysWellFormed :
    State.reset.bufferWf ∧ step State.reset = .next State.reset ∧
      step (seqAt .preinit .idle []) = .next (after (seqAt .preinit .idle [])) :=
  ⟨⟨rfl, Nat.zero_le _, fun a => by simp [State.reset, Memory.read]⟩, rfl, rfl⟩

theorem test_witness_HalfDuplexFrames :
    step (seqAt .login .authSend []) = .next (after (seqAt .login .authSend [])) ∧
      (after (seqAt .login .authSend [])).tx ≠ (seqAt .login .authSend []).tx ∧
      (seqAt .login .authSend []).inputs = [] := ⟨rfl, by decide, rfl⟩

theorem test_witness_SinksOnlyFromExchange :
    (after { exchanging [burstQ10a] with ufc := true, sinkMask := 2, ts := some 100 }).sinks ≠ [] ∧
      ({ exchanging [burstQ10a] with ufc := true, sinkMask := 2, ts := some 100 } : State).ufc = true := by decide

theorem test_witness_StepStops :
    ({ seqAt .init .p1Send [] with portOpen := false } : State).lineWf = true ∧
      step { seqAt .init .p1Send [] with portOpen := false } = .refused .portClosed := ⟨rfl, rfl⟩

theorem test_witness_SilentAuthCounts :
    (seqAt .login .authSend []).quiet ∧ (seqAt .login .authSend []).stage = .login ∧
      (seqAt .login .authSend []).upc = .authSend ∧ (seqAt .login .authSend []).portOpen = true ∧
      (seqAt .login .authSend []).retry = 0 ∧ (seqAt .login .authSend []).attempts = 0 ∧
      ({ seqAt .login .authSend [] with maxRetry := 65535 } : State).quiet :=
  ⟨⟨rfl, rfl, rfl, rfl⟩, rfl, rfl, rfl, rfl, rfl, ⟨rfl, rfl, rfl, rfl⟩⟩

theorem test_witness_SilentPhaseCounts :
    ((seqAt .postInit .p2Send []).quiet ∧ (seqAt .postInit .p2Send []).upc = .p2Send ∧
      (seqAt .postInit .p2Send []).portOpen = true ∧ (seqAt .postInit .p2Send []).burst = 0) ∧
    ((seqAt .postInit .p4Wait []).quiet ∧ (seqAt .postInit .p4Wait []).upc = .p4Wait ∧
      (seqAt .postInit .p4Wait []).portOpen = true) :=
  ⟨⟨⟨rfl, rfl, rfl, rfl⟩, rfl, rfl, rfl⟩, ⟨rfl, rfl, rfl, rfl⟩, rfl, rfl⟩

end Sys2Proof.Tests
end

section
/-!
PROOFS. The sequencer's control registers under every step: position and phase counters (10_state.md R30, R32, R36,
42_sequencer.md R201, R206, R233). A step is first reduced to what it does to these four registers; the two obligations are
then facts about `ControlNext` alone.
-/

namespace Sys2Proof.Machine

/-- The registers that steer the sequencer: its position and the counters of phases 2 and 4. -/
structure Control where
  stage : Stage
  upc : Upc
  burst : BitVec 6
  p4Try : BitVec 5

def State.control (s : State) : Control := ⟨s.stage, s.upc, s.burst, s.p4Try⟩

def Control.position (c : Control) : Position := (c.stage, c.upc)

/-- What `STOP` makes of the control registers: the counters stay. -/
def Control.stopped (c : Control) : Control := { c with stage := .preinit, upc := .idle }

theorem State.position_eq (s : State) : s.position = s.control.position := rfl

theorem State.takeStop_control (s : State) : s.takeStop.control = s.control.stopped := by
  rw [State.takeStop_eq]
  rfl

/-! ### What a step does to them -/

/-- The moves from one running micro-state that change `UPC` alone. -/
def plainMoves : List (Upc × Upc) :=
  [ (.authSend, .authRead), (.authRead, .idle), (.authRead, .authSleep), (.authSleep, .authSend), (.authSleep, .halt),
    (.p1Send, .p1Read), (.p1Read, .halt), (.p1Read, .p1Send), (.p2Check, .p2Wait), (.p3Send, .p3Read),
    (.p3Read, .p4Wait), (.xSend, .xRead), (.xRead, .xSleep), (.xRead, .halt), (.xSleep, .xSend) ]

/-- Everything a step but `STOP` and reset does to the control registers. -/
inductive ControlNext (c : Control) : Control → Prop
  | stay : ControlNext c c
  | plain (u : Upc) : (c.upc, u) ∈ plainMoves → ControlNext c { c with upc := u }
  | runAuth : c.position = (.preinit, .idle) → ControlNext c { c with stage := .login, upc := .authSend }
  | runInit : c.position = (.login, .idle) → ControlNext c { c with stage := .init, upc := .p1Send }
  | readData : c.position = (.xchg, .idle) → ControlNext c { c with upc := .xSend }
  | beginPhase2 : c.upc = .p1Read → ControlNext c { c with stage := .postInit, upc := .p2Send, burst := 0 }
  | probe2 : c.upc = .p2Send → ControlNext c { c with upc := .p2Check, burst := satInc c.burst }
  | again2 : c.upc = .p2Wait → c.burst.toNat ≠ 33 → ControlNext c { c with upc := .p2Send }
  | endPhase2 : c.upc = .p2Wait → c.burst.toNat = 33 → ControlNext c { c with upc := .p3Send }
  | beginPhase4 : c.upc = .p4Wait → ControlNext c { c with upc := .p4Send, p4Try := 0 }
  | probe4 : c.upc = .p4Send → ControlNext c { c with upc := .p4Read, p4Try := satInc c.p4Try }
  | again4 : c.upc = .p4Read → c.p4Try.toNat < 20 → ControlNext c { c with upc := .p4Send }
  | complete : c.upc = .p4Read → ControlNext c { c with stage := .xchg, upc := .idle }

theorem ControlNext.of_eq {c d : Control} (h : d = c) : ControlNext c d := h ▸ .stay

theorem ControlNext.of_plain {s : State} {u : Upc} (v : Upc) (hu : s.upc = u) (h : (u, v) ∈ plainMoves) :
    ControlNext s.control { s.control with upc := v } := by
  subst hu
  exact .plain v h

/-- The block's own micro-step is a `ControlNext`. -/
theorem OwnMove.control {s t : State} (h : OwnMove s t) : ControlNext s.control t.control := by
  cases h with
  | hostRead =>
    obtain ⟨f, m, n, es, r, _, e⟩ := s.finishHostRead_effect
    rw [e]
    exact .stay
  | rest => exact .stay
  | authSend d hd hh hu => exact .of_plain .authRead hu (by decide)
  | authRead hh hu =>
    obtain ⟨f, m, n, es, _, e | e⟩ := authReadStep_effect s <;> rw [e]
    · exact .of_plain .idle hu (by decide)
    · exact .of_plain .authSleep hu (by decide)
  | authSleep hh hu =>
    obtain ⟨_, e⟩ | ⟨_, e⟩ := authSleepDone_effect s <;> rw [e]
    · exact .of_plain .halt hu (by decide)
    · exact .of_plain .authSend hu (by decide)
  | p1Send hh hu => exact .of_plain .p1Read hu (by decide)
  | p1Read hh hu =>
    obtain ⟨f, m, n, es, _, e | ⟨p, e⟩ | ⟨p, e⟩⟩ := p1ReadStep_effect s <;> rw [e]
    · exact .of_plain .halt hu (by decide)
    · exact .of_plain .p1Send hu (by decide)
    · exact .beginPhase2 hu
  | p2Send hh hu => exact .probe2 hu
  | p2CheckNone hh hu => exact .of_plain .p2Wait hu (by decide)
  | p2CheckRead hh hu =>
    obtain ⟨f, m, n, es, _, e⟩ := p2CheckRead_effect s
    rw [e]
    exact .of_plain .p2Wait hu (by decide)
  | p2Wait hh hu =>
    unfold p2WaitDone
    split
    · next h33 => exact .endPhase2 hu h33
    · next h33 => exact .again2 hu h33
  | p3Send hh hu => exact .of_plain .p3Read hu (by decide)
  | p3Read hh hu =>
    obtain ⟨f, m, n, es, _, e⟩ := p3ReadStep_effect s
    rw [e]
    exact .of_plain .p4Wait hu (by decide)
  | p4Wait hh hu => exact .beginPhase4 hu
  | p4Send hh hu => exact .probe4 hu
  | p4Read hh hu =>
    obtain ⟨f, m, n, es, _, ⟨h20, e⟩ | e⟩ := p4ReadStep_effect s <;> rw [e]
    · exact .again4 hu h20
    · exact .complete hu
  | xSend bs toggle hl hh hu => exact .of_plain .xRead hu (by decide)
  | xRead p hp hh hu =>
    obtain ⟨f, m, n, es, _, ⟨_, _, _, _, _, _, e⟩ | ⟨_, _, e⟩⟩ := xReadStep_effect hp s <;> rw [e]
    · exact .of_plain .xSleep hu (by decide)
    · exact .of_plain .halt hu (by decide)
  | xSleep hh hu => exact .of_plain .xSend hu (by decide)

/-- A host command is a `ControlNext`, or the `STOP` that is taken at once. -/
theorem HostMove.control {s t : State} (h : HostMove s t) :
    ControlNext s.control t.control ∨ (t.portOpen = false ∧ t.control = s.control.stopped) := by
  cases h with
  | responds | image | closePort | write | readWaits | stopHeld => exact .inl .stay
  | fresh | codec | openPort => exact .inl (.of_eq (by simp [State.control]))
  | readEnds =>
    obtain ⟨f, m, n, es, r, _, e⟩ := s.finishHostRead_effect
    rw [e]
    exact .inl .stay
  | runAuth user maxRetry wait hb hs hu =>
    have hn : ControlNext s.control { s.control with stage := .login, upc := .authSend } :=
      .runAuth (Prod.ext hs hu)
    exact .inl (by simpa [State.control] using hn)
  | runInit hb hs hu => exact .inl (.runInit (Prod.ext hs hu))
  | readData ufc sinks poll hb hs hu => exact .inl (.readData (Prod.ext hs hu))
  | stop => exact .inr ⟨by rw [State.takeStop_eq], s.takeStop_control⟩

/-- Every step is a `ControlNext`, or leads where `STOP` leads: from `s`, from where its own micro-step led, or from the reset
values. -/
theorem step_control {s t : State} (h : step s = .next t) :
    ControlNext s.control t.control ∨
      (t.portOpen = false ∧
        ∃ c, (ControlNext s.control c ∨ c = State.reset.control) ∧ t.control = c.stopped) := by
  cases step_move h with
  | reset => exact .inr ⟨rfl, _, .inr rfl, rfl⟩
  | host c rest t hi hr hm =>
    rcases hm.control with hn | ⟨hp, e⟩
    · exact .inl hn
    · exact .inr ⟨hp, _, .inl .stay, e⟩
  | arrive b rest =>
    refine .inl (.of_eq ?_)
    unfold State.arrive
    split <;> rfl
  | own rest u hi hm => exact .inl hm.control
  | ownStopped rest u hi hm =>
    exact .inr ⟨by rw [State.takeStop_eq], u.control, .inl hm.control, u.takeStop_control⟩

/-! ### The position (10_state.md R32, 42_sequencer.md R233) -/

/-- At a legal position a running micro-state tells the stage. -/
theorem stage_of_legal {st : Stage} {u : Upc} (hl : legalPosition (st, u) = true) (hr : isRunning u = true) :
    st = stageOf u := by
  revert hl hr
  cases st <;> cases u <;> decide

theorem legal_of_transition {p q : Position} (h : (p, q) ∈ transitions) :
    legalPosition q = true ∧ p.1.code.toNat ≤ q.1.code.toNat := by
  have table : ∀ e ∈ transitions, legalPosition e.2 = true ∧ e.1.1.code.toNat ≤ e.2.1.code.toNat := by decide
  exact table _ h

theorem transition_of_plain {u v : Upc} (h : (u, v) ∈ plainMoves) :
    isRunning u = true ∧ ((stageOf u, u), (stageOf u, v)) ∈ transitions := by
  have table : ∀ e ∈ plainMoves, isRunning e.1 = true ∧ ((stageOf e.1, e.1), (stageOf e.1, e.2)) ∈ transitions := by
    decide
  exact table _ h

/-- From a running micro-state at a legal position, a transition that R233 lists for the micro-state's own stage. -/
theorem Control.transition_to {c : Control} {u : Upc} (q : Position) (hl : legalPosition c.position = true)
    (hu : c.upc = u) (ht : isRunning u = true ∧ ((stageOf u, u), q) ∈ transitions) : (c.position, q) ∈ transitions := by
  subst hu
  rw [show c.position = (stageOf c.upc, c.upc) from Prod.ext (stage_of_legal hl ht.1) rfl]
  exact ht.2

/-- The same for a transition within the stage. -/
theorem Control.transition_within {c : Control} {u : Upc} (v : Upc) (hl : legalPosition c.position = true)
    (hu : c.upc = u) (ht : isRunning u = true ∧ ((stageOf u, u), (stageOf u, v)) ∈ transitions) :
    (c.position, (c.stage, v)) ∈ transitions := by
  subst hu
  have hs : c.stage = stageOf c.upc := stage_of_legal hl ht.1
  rw [hs]
  exact Control.transition_to _ hl rfl ht

/-- From a legal position the control registers stay there, or take a transition of R233's table. -/
theorem ControlNext.listed {c d : Control} (h : ControlNext c d) (hl : legalPosition c.position = true) :
    d.position = c.position ∨ (c.position, d.position) ∈ transitions := by
  cases h with
  | stay => exact .inl rfl
  | plain u hm => exact .inr (Control.transition_within u hl rfl (transition_of_plain hm))
  | runAuth hp =>
    rw [hp]
    exact .inr (by simp [transitions, Control.position])
  | runInit hp =>
    rw [hp]
    exact .inr (by simp [transitions, Control.position])
  | readData hp =>
    obtain ⟨hs, -⟩ := Prod.ext_iff.1 hp
    refine .inr ?_
    rw [hp, show (⟨c.stage, .xSend, c.burst, c.p4Try⟩ : Control).position = (.xchg, .xSend) from Prod.ext hs rfl]
    decide
  | beginPhase2 hu => exact .inr (Control.transition_to (.postInit, .p2Send) hl hu (by decide))
  | probe2 hu => exact .inr (Control.transition_within .p2Check hl hu (by decide))
  | again2 hu => exact .inr (Control.transition_within .p2Send hl hu (by decide))
  | endPhase2 hu => exact .inr (Control.transition_within .p3Send hl hu (by decide))
  | beginPhase4 hu => exact .inr (Control.transition_within .p4Send hl hu (by decide))
  | probe4 hu => exact .inr (Control.transition_within .p4Read hl hu (by decide))
  | again4 hu => exact .inr (Control.transition_within .p4Send hl hu (by decide))
  | complete hu => exact .inr (Control.transition_to (.xchg, .idle) hl hu (by decide))

/-- Settles O49: `step_control` and R233's table, whose transitions all lead to legal positions and to no earlier stage. -/
theorem onlyListedTransitions : Obligations.OnlyListedTransitions := by
  intro s t hl hstep
  rcases step_control hstep with hn | ⟨hp, c, _, e⟩
  · rcases hn.listed hl with he | ht
    · have hs : t.stage = s.stage := congrArg Prod.fst he
      exact ⟨(congrArg legalPosition he).trans hl, .inl he, .inl (by rw [hs])⟩
    · obtain ⟨hl', hs⟩ := legal_of_transition ht
      exact ⟨hl', .inr (.inl ht), .inl hs⟩
  · have he : t.position = stopped := by rw [t.position_eq, e]; rfl
    exact ⟨by rw [he]; decide, .inr (.inr ⟨he, hp⟩), .inr he⟩

/-! ### The phase counters (10_state.md R36, 42_sequencer.md R201, R206) -/

/-- `State.countersWf` as a property of the control registers, one clause for each of its conjuncts. -/
structure Control.CountersWf (c : Control) : Prop where
  burst_le : c.burst.toNat ≤ 33
  p4Try_le : c.p4Try.toNat ≤ 20
  burst_lt : c.upc = .p2Send → c.burst.toNat < 33
  p4Try_lt : c.upc = .p4Send → c.p4Try.toNat < 20
  burst_eq : pastPhase2 c.upc = true ∨ c.stage = .xchg → c.burst.toNat = 33

theorem State.countersWf_iff {s : State} : s.countersWf = true ↔ s.control.CountersWf := by
  have e : s.countersWf = true ↔
      s.burst.toNat ≤ 33 ∧ s.p4Try.toNat ≤ 20 ∧ (s.upc = .p2Send → s.burst.toNat < 33) ∧
        (s.upc = .p4Send → s.p4Try.toNat < 20) ∧
        (pastPhase2 s.upc = true ∨ s.stage = .xchg → s.burst.toNat = 33) := by
    simp only [State.countersWf, Bool.and_eq_true, Bool.or_eq_true, Bool.not_eq_true', bne_iff_ne, beq_iff_eq,
      decide_eq_true_eq, ← Bool.not_eq_true, ne_eq, imp_iff_not_or, and_assoc]
    rfl
  rw [e]
  exact ⟨fun ⟨a, b, c, d, f⟩ => ⟨a, b, c, d, f⟩, fun ⟨a, b, c, d, f⟩ => ⟨a, b, c, d, f⟩⟩

theorem satInc_toNat_le {w : Nat} (c : BitVec w) : (satInc c).toNat ≤ c.toNat + 1 := by
  unfold satInc
  split
  · omega
  · rw [BitVec.toNat_add, BitVec.toNat_ofNat]
    exact (Nat.mod_le _ _).trans (Nat.add_le_add_left (Nat.mod_le _ _) _)

/-- No plain move enters a sending micro-state of phase 2 or 4, or phase 3 from phase 2. -/
theorem plainMove_counters {u v : Upc} (h : (u, v) ∈ plainMoves) :
    v ≠ .p2Send ∧ v ≠ .p4Send ∧ (pastPhase2 v = true → pastPhase2 u = true) := by
  have table : ∀ e ∈ plainMoves, e.2 ≠ .p2Send ∧ e.2 ≠ .p4Send ∧ (pastPhase2 e.2 = true → pastPhase2 e.1 = true) := by
    decide
  exact table _ h

/-- What a move that keeps the counters has to show at the position it leads to. -/
theorem Control.CountersWf.goto {c : Control} (h : c.CountersWf) (st : Stage) (v : Upc)
    (h2 : v = .p2Send → c.burst.toNat < 33) (h4 : v = .p4Send → c.p4Try.toNat < 20)
    (he : pastPhase2 v = true ∨ st = .xchg → c.burst.toNat = 33) :
    CountersWf { c with stage := st, upc := v } :=
  ⟨h.burst_le, h.p4Try_le, h2, h4, he⟩

theorem Control.CountersWf.stopped {c : Control} (h : c.CountersWf) : c.stopped.CountersWf :=
  h.goto .preinit .idle nofun nofun nofun

theorem ControlNext.countersWf {c d : Control} (h : ControlNext c d) (hc : c.CountersWf) : d.CountersWf := by
  have past : ∀ {u}, c.upc = u → pastPhase2 u = true → c.burst.toNat = 33 := fun hu hp =>
    hc.burst_eq (.inl (hu ▸ hp))
  cases h with
  | stay => exact hc
  | plain u hm =>
    obtain ⟨h2, h4, hp⟩ := plainMove_counters hm
    exact hc.goto _ u (fun e => absurd e h2) (fun e => absurd e h4) fun e => hc.burst_eq (e.imp_left hp)
  | runAuth => exact hc.goto .login .authSend nofun nofun nofun
  | runInit => exact hc.goto .init .p1Send nofun nofun nofun
  | readData => exact hc.goto _ .xSend nofun nofun fun e => hc.burst_eq (e.imp_left nofun)
  | beginPhase2 => exact ⟨by simp, hc.p4Try_le, fun _ => by simp, nofun, nofun⟩
  | probe2 hu =>
    have hlt := hc.burst_lt hu
    have hle := satInc_toNat_le c.burst
    refine ⟨show (satInc c.burst).toNat ≤ 33 by omega, hc.p4Try_le, nofun, nofun, ?_⟩
    rintro (hp | hx)
    · cases hp
    · have := hc.burst_eq (.inr hx)
      omega
  | again2 hu h33 =>
    have hle := hc.burst_le
    exact hc.goto _ .p2Send (fun _ => by omega) nofun fun e => hc.burst_eq (e.imp_left nofun)
  | endPhase2 hu h33 => exact hc.goto _ .p3Send nofun nofun fun _ => h33
  | beginPhase4 hu => exact ⟨hc.burst_le, by simp, nofun, fun _ => by simp, fun _ => past hu rfl⟩
  | probe4 hu =>
    have hlt := hc.p4Try_lt hu
    have hle := satInc_toNat_le c.p4Try
    exact ⟨hc.burst_le, show (satInc c.p4Try).toNat ≤ 20 by omega, nofun, nofun, fun _ => past hu rfl⟩
  | again4 hu h20 => exact hc.goto _ .p4Send nofun (fun _ => h20) fun _ => past hu rfl
  | complete hu => exact hc.goto .xchg .idle nofun nofun fun _ => past hu rfl

theorem reset_countersWf : State.reset.control.CountersWf := State.countersWf_iff.1 rfl

/-- Settles O53: the counters' invariant speaks of the control registers only, and every `ControlNext` and `STOP` keeps it. -/
theorem countersStayInRange : Obligations.CountersStayInRange := by
  intro s t _ hc hstep
  rw [State.countersWf_iff] at hc ⊢
  rcases step_control hstep with hn | ⟨_, c, hn | rfl, e⟩
  · exact hn.countersWf hc
  · exact e ▸ (hn.countersWf hc).stopped
  · exact e ▸ reset_countersWf.stopped

end Sys2Proof.Machine
end

section
/-!
PROOFS. Storage under every step: the frame registers' bounds, the burst buffer, the read-only registers (10_state.md R21, R23,
R34, R43, 20_memory.md R62).
-/

namespace Sys2Proof.Machine

/-- The registers that the three storage invariants speak of. -/
structure Storage where
  txf : Frame
  rxf : Frame
  rxbuf : Memory
  rxbufN : Nat
  rdBudget : Word32
  rdGranule : Word32

def State.storage (s : State) : Storage := ⟨s.txf, s.rxf, s.rxbuf, s.rxbufN, s.rdBudget, s.rdGranule⟩

/-- What a move keeps of the three storage invariants, the two frame registers taken one by one. -/
structure StorageKept (s t : State) : Prop where
  txf : s.txf.wf = true → t.txf.wf = true
  rxf : s.rxf.wf = true → t.rxf.wf = true
  buffer : s.bufferWf → t.bufferWf
  constants : s.constantsWf = true → t.constantsWf = true

theorem StorageKept.refl (s : State) : StorageKept s s := ⟨id, id, id, id⟩

theorem StorageKept.trans {s t u : State} (h : StorageKept s t) (k : StorageKept t u) : StorageKept s u :=
  ⟨k.txf ∘ h.txf, k.rxf ∘ h.rxf, k.buffer ∘ h.buffer, k.constants ∘ h.constants⟩

/-! ### The shared operations -/

/-- A move that writes none of the storage. -/
theorem StorageKept.of_eq {s t : State} (h : t.storage = s.storage) : StorageKept s t := by
  simp only [State.storage, Storage.mk.injEq] at h
  obtain ⟨htx, hrx, hm, hn, hb, hg⟩ := h
  refine ⟨?_, ?_, ?_, ?_⟩
  · rw [htx]; exact id
  · rw [hrx]; exact id
  · rw [State.bufferWf, State.bufferWf, hm, hn]; exact id
  · rw [State.constantsWf, State.constantsWf, hb, hg]; exact id

/-- A read, with whatever else it writes outside the storage. -/
theorem StorageKept.of_read {s t : State} {f : Frame} {m : Memory} {n : Nat} (hw : ReadWf f m n)
    (h : t.storage = { s.storage with rxf := f, rxbuf := m, rxbufN := n }) : StorageKept s t := by
  simp only [State.storage, Storage.mk.injEq] at h
  obtain ⟨htx, rfl, rfl, rfl, hb, hg⟩ := h
  obtain ⟨hf, hbuf⟩ := hw
  refine ⟨?_, fun _ => hf, fun _ => hbuf t, ?_⟩
  · rw [htx]; exact id
  · rw [State.constantsWf, State.constantsWf, hb, hg]; exact id

theorem sendFrame_wf {h d : Bytes} (hh : h.length ≤ 255) (hd : d.length ≤ 255) : (sendFrame h d).wf = true := by
  simp [sendFrame_eq, Frame.wf, hh, hd]

theorem StorageKept.send (s : State) {h d : Bytes} (hh : h.length ≤ 255) (hd : d.length ≤ 255) :
    StorageKept s (s.send h d) := by
  rw [State.send_eq]
  exact ⟨fun _ => sendFrame_wf hh hd, id, id, id⟩

theorem StorageKept.setFrame (s : State) (fs : FrameSel) {f : Frame} (hf : (s.frame fs).wf = true → f.wf = true) :
    StorageKept s (s.setFrame fs f) := by
  cases fs with
  | txf => exact ⟨hf, id, id, id⟩
  | rxf => exact ⟨id, hf, id, id⟩

theorem headerBytes_length_le (h : Hdr) : h.bytes.length ≤ 2 := by
  cases hs : h.second <;> simp [Hdr.bytes, hs]

theorem StorageKept.takeInput (s : State) (rest : List Input) : StorageKept s { s with inputs := rest } := .of_eq rfl

theorem StorageKept.finishHostRead (s : State) : StorageKept s s.finishHostRead := by
  obtain ⟨f, m, n, es, r, hw, e⟩ := s.finishHostRead_effect
  rw [e]
  exact .of_read hw rfl

theorem StorageKept.takeStop (s : State) : StorageKept s s.takeStop := by
  rw [State.takeStop_eq]
  exact .of_eq rfl

/-! ### Every move -/

theorem OwnMove.storageKept {s t : State} (h : OwnMove s t) : StorageKept s t := by
  cases h with
  | hostRead => exact .finishHostRead s
  | rest => exact .refl s
  | authSend d hd => exact (StorageKept.send s (by simp) (by omega)).trans (.of_eq rfl)
  | p1Send =>
    have hl := headerBytes_length_le s.probeHdr
    exact (StorageKept.send s (by omega) (by simp)).trans (.of_eq rfl)
  | p2Send | p3Send | p4Send => exact (StorageKept.send s (by simp) (by simp)).trans (.of_eq rfl)
  | xSend bs toggle hl => exact (StorageKept.send s (by omega) (by simp)).trans (.of_eq rfl)
  | authRead =>
    obtain ⟨f, m, n, es, hw, e | e⟩ := authReadStep_effect s <;> rw [e] <;> exact .of_read hw rfl
  | p1Read =>
    obtain ⟨f, m, n, es, hw, e | ⟨p, e⟩ | ⟨p, e⟩⟩ := p1ReadStep_effect s <;> rw [e] <;>
      exact .of_read hw rfl
  | p2CheckRead =>
    obtain ⟨f, m, n, es, hw, e⟩ := p2CheckRead_effect s
    rw [e]
    exact .of_read hw rfl
  | p3Read =>
    obtain ⟨f, m, n, es, hw, e⟩ := p3ReadStep_effect s
    rw [e]
    exact .of_read hw rfl
  | p4Read =>
    obtain ⟨f, m, n, es, hw, ⟨_, e⟩ | e⟩ := p4ReadStep_effect s <;> rw [e] <;>
      exact .of_read hw rfl
  | xRead p hp =>
    obtain ⟨f, m, n, es, hw, ⟨_, _, _, _, _, _, e⟩ | ⟨_, _, e⟩⟩ := xReadStep_effect hp s <;> rw [e] <;>
      exact .of_read hw rfl
  | authSleep =>
    obtain ⟨_, e⟩ | ⟨_, e⟩ := authSleepDone_effect s <;> rw [e] <;> exact .of_eq rfl
  | p2CheckNone | p2Wait | p4Wait | xSleep => exact .of_eq rfl

theorem HostMove.storageKept {s t : State} (h : HostMove s t) : StorageKept s t := by
  cases h with
  | responds | image | closePort | write | runInit | readData | stopHeld => exact .of_eq rfl
  | openPort | runAuth => exact .of_eq (by simp [State.storage])
  | fresh fs => exact (StorageKept.setFrame s fs fun _ => rfl).trans (.of_eq rfl)
  | codec fs f es _ hf => exact (StorageKept.setFrame s fs hf).trans (.of_eq rfl)
  | readWaits => exact .of_read ReadWf_silence rfl
  | readEnds => exact .finishHostRead s
  | stop => exact .takeStop s

theorem step_storageKept {s t : State} (h : step s = .next t) : StorageKept s t := by
  cases step_move h with
  | reset => exact ⟨fun _ => rfl, fun _ => rfl, fun _ => ReadWf_silence.2 State.reset, fun _ => rfl⟩
  | host c rest t hi hr hm => exact (StorageKept.takeInput s rest).trans hm.storageKept
  | arrive b rest =>
    refine .of_eq ?_
    unfold State.arrive
    split <;> rfl
  | own rest u hi hm => exact (StorageKept.takeInput s rest).trans hm.storageKept
  | ownStopped rest u hi hm => exact ((StorageKept.takeInput s rest).trans hm.storageKept).trans (.takeStop u)

/-- Settles O50: every move keeps each of the three invariants by itself. -/
theorem storageStaysWellFormed : Obligations.StorageStaysWellFormed := by
  intro s t hstep
  have hk := step_storageKept hstep
  refine ⟨fun hf => ?_, hk.buffer, hk.constants⟩
  rw [State.framesWf, Bool.and_eq_true] at hf ⊢
  exact ⟨hk.txf hf.1, hk.rxf hf.2⟩

end Sys2Proof.Machine
end

section
/-!
PROOFS. The error record under every step: only a terminal error writes it, and names the stage it is raised in (10_state.md
R40, 60_exceptions.md R274 to R276).
-/

namespace Sys2Proof.Machine

/-- A terminal error was raised between two states. -/
structure ErrorRaised (s t : State) : Prop where
  stage : t.err.stage = s.stage
  kind : t.err.kind ≠ .none
  log : ∃ more, t.log = s.log ++ more ++ [.eTerminal]
  wf : legalPosition s.position = true → t.err.wf = true

/-- What a move does to the error record: nothing, or a terminal error. -/
def ErrorMove (s t : State) : Prop := t.err = s.err ∨ ErrorRaised s t

/-- The stage of the running micro-state at which an error is raised. -/
theorem State.stage_of_running {s : State} {u : Upc} (hu : s.upc = u) (hr : isRunning u = true)
    (hl : legalPosition s.position = true) : s.stage = stageOf u := by
  subst hu
  exact stage_of_legal hl hr

theorem authExhausted_raised {s t : State} {n : Word32} (hu : s.upc = .authSleep)
    (he : t.err = ⟨.authExhausted, s.stage, n, none⟩) (hl : t.log = s.log ++ [.eTerminal]) : ErrorRaised s t := by
  refine ⟨by rw [he], by simp [he], ⟨[], by simpa using hl⟩, fun hp => ?_⟩
  rw [he, State.stage_of_running hu rfl hp]
  rfl

theorem initTimeout_raised {s t : State} {es : List LogEvent} {n : Word32} (hu : s.upc = .p1Read)
    (he : t.err = ⟨.initTimeout, s.stage, n, some .globalTimeout⟩) (hl : t.log = s.log ++ es ++ [.eTerminal]) :
    ErrorRaised s t := by
  refine ⟨by rw [he], by simp [he], ⟨es, hl⟩, fun hp => ?_⟩
  rw [he, State.stage_of_running hu rfl hp]
  rfl

theorem commError_raised {s t : State} {es : List LogEvent} {n : Word32} {c : CommCode} (hu : s.upc = .xRead)
    (hc : c ≠ .checksumFailure) (he : t.err = ⟨.commError, s.stage, n, some c⟩)
    (hl : t.log = s.log ++ es ++ [.eTerminal]) : ErrorRaised s t := by
  refine ⟨by rw [he], by simp [he], ⟨es, hl⟩, fun hp => ?_⟩
  rw [he, State.stage_of_running hu rfl hp]
  simp [ErrRecord.wf, stageOf, hc]

/-- The block's own micro-step raises a terminal error at the end of AUTH_SLEEP, in P1_READ and in X_READ only. -/
theorem OwnMove.errorMove {s t : State} (h : OwnMove s t) : ErrorMove s t := by
  cases h with
  | authSleep hh hu =>
    obtain ⟨_, e⟩ | ⟨_, e⟩ := authSleepDone_effect s <;> rw [e]
    · exact .inr (authExhausted_raised hu rfl rfl)
    · exact .inl rfl
  | p1Read hh hu =>
    obtain ⟨f, m, n, es, _, e | ⟨p, e⟩ | ⟨p, e⟩⟩ := p1ReadStep_effect s <;> rw [e]
    · exact .inr (initTimeout_raised hu rfl rfl)
    · exact .inl rfl
    · exact .inl rfl
  | xRead p hp hh hu =>
    obtain ⟨f, m, n, es, _, ⟨_, _, _, _, _, _, e⟩ | ⟨c, hc, e⟩⟩ := xReadStep_effect hp s <;> rw [e]
    · exact .inl rfl
    · exact .inr (commError_raised hu hc rfl rfl)
  | hostRead =>
    obtain ⟨f, m, n, es, r, _, e⟩ := s.finishHostRead_effect
    exact .inl (by rw [e])
  | authRead =>
    obtain ⟨f, m, n, es, _, e | e⟩ := authReadStep_effect s <;> exact .inl (by rw [e])
  | p2CheckRead =>
    obtain ⟨f, m, n, es, _, e⟩ := p2CheckRead_effect s
    exact .inl (by rw [e])
  | p3Read =>
    obtain ⟨f, m, n, es, _, e⟩ := p3ReadStep_effect s
    exact .inl (by rw [e])
  | p4Read =>
    obtain ⟨f, m, n, es, _, ⟨_, e⟩ | e⟩ := p4ReadStep_effect s <;> exact .inl (by rw [e])
  | rest | authSend | p1Send | p2Send | p2CheckNone | p2Wait | p3Send | p4Wait | p4Send | xSend | xSleep => exact .inl rfl

/-- No host command writes the error record. -/
theorem HostMove.err_eq {s t : State} (h : HostMove s t) : t.err = s.err := by
  cases h with
  | responds | image | closePort | write | readWaits | runInit | readData | stopHeld => rfl
  | fresh | codec | openPort | runAuth => simp
  | readEnds =>
    obtain ⟨f, m, n, es, r, _, e⟩ := s.finishHostRead_effect
    rw [e]
  | stop => rw [State.takeStop_eq]

/-- Every step but a reset is an `ErrorMove`: a stop taken after the micro-step writes neither the record nor the log. -/
theorem step_errorMove {s t : State} (h : step s = .next t) :
    (∃ rest, s.inputs = .reset :: rest ∧ t = hardReset rest s) ∨ ErrorMove s t := by
  cases step_move h with
  | reset rest hi => exact .inl ⟨rest, hi, rfl⟩
  | host c rest t hi hr hm => exact .inr (.inl hm.err_eq)
  | arrive b rest =>
    refine .inr (.inl ?_)
    unfold State.arrive
    split <;> rfl
  | own rest u hi hm =>
    exact .inr (hm.errorMove.imp id fun hr => ⟨hr.stage, hr.kind, hr.log, hr.wf⟩)
  | ownStopped rest u hi hm =>
    rw [State.takeStop_eq]
    exact .inr (hm.errorMove.imp id fun hr => ⟨hr.stage, hr.kind, hr.log, hr.wf⟩)

/-- Settles O51: an `ErrorMove` that changes the record raised an error, whose record is a legal one. -/
theorem errorRecordRule : Obligations.ErrorRecordRule := by
  intro s t hstep
  rcases step_errorMove hstep with ⟨rest, hi, rfl⟩ | he | hr
  · exact ⟨fun _ => .inl ⟨rest, hi⟩, fun _ _ => rfl⟩
  · exact ⟨fun hne => absurd he hne, fun _ hw => by rwa [he]⟩
  · exact ⟨fun _ => .inr ⟨hr.stage, hr.kind, hr.log⟩, fun hl _ => hr.wf hl⟩

end Sys2Proof.Machine
end

section
/-!
PROOFS. Reset and the register read (10_state.md R42, R46, 42_sequencer.md R231, 70_reset_and_hazards.md R300).
-/

namespace Sys2Proof.Machine

/-! ### Reset -/

theorem step_reset {s : State} {rest : List Input} (hi : s.inputs = .reset :: rest) :
    step s = .next (hardReset rest s) := by
  simp only [step, hi]

/-- Settles O9: a reset event is taken before anything else, and `hardReset` writes every register. -/
theorem resetValues : Obligations.ResetValues := by
  intro s rest hi
  rw [step_reset hi]
  rfl

/-- Settles O48: each invariant is evaluated on the reset values; the empty buffer is the one a read of silence leaves. -/
theorem resetIsLegal : Obligations.ResetIsLegal :=
  ⟨rfl, rfl, ReadWf_silence.2 State.reset, rfl, rfl, rfl, rfl, rfl⟩

/-! ### The register read -/

theorem flagWord_toNat (b : Bool) : (flagWord b).toNat = b.toNat := by cases b <;> rfl

/-- A header of one or two bytes and its length fit the 64-bit result. -/
theorem headerWord_toNat (h : Hdr) : (headerWord h).toNat = unbe h.bytes + 65536 * h.bytes.length := by
  have hlt : unbe h.bytes + 65536 * h.bytes.length < 2 ^ 64 := by
    have h1 := h.first.isLt
    cases hs : h.second with
    | none =>
      simp only [Hdr.bytes, unbe, hs, Option.toList, List.foldl, List.length]
      omega
    | some q =>
      have h2 := q.isLt
      simp only [Hdr.bytes, unbe, hs, Option.toList, List.foldl, List.length]
      omega
  rw [headerWord, BitVec.toNat_ofNat, Nat.mod_eq_of_lt hlt]

/-- An optional register as `RDREG` shows it, by the value shown when it is set. -/
theorem getD_allOnes_toNat {α : Type} (o : Option α) {f : α → Word64} {g : α → Nat} (h : ∀ a, (f a).toNat = g a) :
    ((o.map f).getD (BitVec.allOnes 64)).toNat = (o.map g).getD (2 ^ 64 - 1) := by
  cases o with
  | none => rfl
  | some a => exact h a

/-- `RDREG` of the number `e.1` responds with the value `e.2`, and changes nothing else. -/
def ReadsRegister (s : State) (e : Byte × Nat) : Prop :=
  exec (.rdReg e.1) s = .next { s with responses := s.responses ++ [.ok (.register (BitVec.ofNat 64 e.2))] } ∧
    e.2 < 2 ^ 64

theorem ReadsRegister.of_word {s : State} {k : Byte} {w : Word64} {v : Nat} (hw : s.register k.toNat = some w)
    (hv : w.toNat = v) : ReadsRegister s (k, v) := by
  subst hv
  refine ⟨?_, w.isLt⟩
  rw [BitVec.ofNat_toNat, BitVec.setWidth_eq]
  simp only [exec, execRdReg, hw]
  rfl

theorem ReadsRegister.bits {s : State} {k : Byte} {n : Nat} {x : BitVec n}
    (hw : s.register k.toNat = some (x.setWidth 64)) (hn : n ≤ 64 := by decide) : ReadsRegister s (k, x.toNat) :=
  .of_word hw (BitVec.toNat_setWidth_of_le hn)

theorem ReadsRegister.flag {s : State} {k : Byte} {b : Bool} (hw : s.register k.toNat = some (flagWord b)) :
    ReadsRegister s (k, b.toNat) := .of_word hw (flagWord_toNat b)

theorem State.register_unassigned (s : State) {n : Nat} (h : 27 ≤ n) : s.register n = none := by
  obtain ⟨m, rfl⟩ := Nat.exists_eq_add_of_le' h
  rfl

theorem execRdReg_unassigned {s : State} {k : Byte} (h : 27 ≤ k.toNat) :
    exec (.rdReg k) s = .next { s with responses := s.responses ++ [.illegal] } := by
  simp only [exec, execRdReg, s.register_unassigned h]
  rfl

/-- Settles O31: the registers of R42's list in its order, each by its kind. -/
theorem rdRegResult : Obligations.RdRegResult := by
  intro s
  refine ⟨fun k v => (?_ : ∀ e ∈ _, ReadsRegister s e) (k, v), fun k hk => execRdReg_unassigned hk⟩
  simp only [List.forall_mem_cons]
  exact ⟨.bits rfl, .bits rfl, .flag rfl, .bits rfl, .bits rfl, .bits rfl, .bits rfl, .bits rfl, .bits rfl, .bits rfl,
    .bits rfl, .bits rfl, .of_word rfl (headerWord_toNat s.probeHdr),
    .of_word rfl (getD_allOnes_toNat s.lastHdr headerWord_toNat), .flag rfl, .of_word rfl (by cases s.ts <;> rfl),
    .bits rfl, .bits rfl, .flag rfl, .bits rfl, .bits rfl, .bits rfl, .bits rfl, .flag rfl, .bits rfl, .flag rfl,
    .flag rfl, nofun⟩

end Sys2Proof.Machine
end

section
/-!
PROOFS. The output channels and the line under every step: what is put out stays, and bytes on the line are one whole frame with
which nothing is read (20_memory.md R64, R65, R68, R69, R77, 41_transport.md R161, 70_reset_and_hazards.md R310). Both are read
off one case analysis over the moves, `OutputMove`.
-/

namespace Sys2Proof.Machine

/-! ### A list of outputs -/

@[simp] theorem Extends.refl {α : Type} (l : List α) : Extends l l := ⟨[], (List.append_nil l).symm⟩

@[simp] theorem Extends.append {α : Type} (l more : List α) : Extends l (l ++ more) := ⟨more, rfl⟩

theorem Extends.trans {α : Type} {l m n : List α} (h : Extends l m) (k : Extends m n) : Extends l n := by
  obtain ⟨a, rfl⟩ := h
  obtain ⟨b, rfl⟩ := k
  exact ⟨a ++ b, List.append_assoc l a b⟩

/-! ### A transmission -/

/-- An image is made of the four stored fields (40_codec.md R135). -/
theorem Frame.image_eq_some {f : Frame} {img : Bytes} (h : f.image = some img) :
    ∃ (hdr : Bytes) (n : Byte) (d : Bytes) (c : Word16),
      f.hdr = some hdr ∧ f.size = some n ∧ f.data = some d ∧ f.csum = some c ∧ img = hdr ++ n :: (d ++ be16 c) := by
  unfold Frame.image at h
  split at h
  · next hdr n d c hh hn hd hc => exact ⟨hdr, n, d, c, hh, hn, hd, hc, by injection h with h; exact h.symm⟩
  · cases h

/-- The receiving side: the unread bursts, `RXF`, and the burst buffer with its fill count. -/
def State.received (s : State) : List Burst × Frame × Memory × Nat := (s.rxPending, s.rxf, s.rxbuf, s.rxbufN)

/-- Between two states one frame is sent, which a frame register of the second holds, and nothing is read. -/
structure Transmits (s t : State) : Prop where
  frame : ∃ (fs : FrameSel) (img : Bytes), (t.frame fs).image = some img ∧ t.tx = s.tx ++ outbound img
  received : t.received = s.received

theorem Transmits.of_send {s t : State} (h d : Bytes) (hf : t.txf = sendFrame h d) (ht : t.tx = (s.send h d).tx)
    (hr : t.received = s.received) : Transmits s t :=
  ⟨⟨.txf, _, (congrArg Frame.image hf).trans (sendFrame_image h d), ht⟩, hr⟩

theorem Transmits.write {s : State} {fs : FrameSel} {img : Bytes} (h : (s.frame fs).image = some img) :
    Transmits s (s.writeImage (s.frame fs) img).respondOk :=
  ⟨⟨fs, img, by cases fs <;> exact h, rfl⟩, rfl⟩

/-- `STOP` drops the unread bursts, so it leaves a transmission one only where there are none. -/
theorem Transmits.takeStop {s u : State} (h : Transmits s u) (hp : u.rxPending = []) : Transmits s u.takeStop := by
  have hr : u.takeStop.received = u.received := by
    rw [State.takeStop_eq, State.received, State.received, hp]
  obtain ⟨fs, img, hi, ht⟩ := h.frame
  refine ⟨⟨fs, img, ?_, ?_⟩, hr.trans h.received⟩
  · rw [State.takeStop_eq]
    cases fs <;> exact hi
  · rw [State.takeStop_eq]
    exact ht

/-! ### What a move puts out -/

/-- What any move but a reset does to the output channels: the TX stream stays or takes one frame, the others only grow. -/
structure OutputMove (s t : State) : Prop where
  responses : Extends s.responses t.responses
  sinks : Extends s.sinks t.sinks
  log : Extends s.log t.log
  line : t.tx = s.tx ∨ Transmits s t

/-- A move that puts nothing on the line. -/
theorem OutputMove.quiet {s t : State} (ht : t.tx = s.tx) (hr : Extends s.responses t.responses := by simp)
    (hs : Extends s.sinks t.sinks := by simp) (hl : Extends s.log t.log := by simp) : OutputMove s t :=
  ⟨hr, hs, hl, .inl ht⟩

theorem OutputMove.of_takeInput {s t : State} {rest : List Input} (h : OutputMove { s with inputs := rest } t) :
    OutputMove s t :=
  ⟨h.responses, h.sinks, h.log, h.line.imp_right fun hs => ⟨hs.frame, hs.received⟩⟩

theorem OutputMove.takeStop {s u : State} (h : OutputMove s u) (hp : u.tx = s.tx ∨ u.rxPending = []) :
    OutputMove s u.takeStop := by
  have stop : OutputMove u u.takeStop := by
    rw [State.takeStop_eq]
    exact .quiet rfl
  have ht : u.takeStop.tx = u.tx := by rw [State.takeStop_eq]
  refine ⟨h.responses.trans stop.responses, h.sinks.trans stop.sinks, h.log.trans stop.log, ?_⟩
  rcases h.line, hp with ⟨he | hs, he | hp⟩
  · exact .inl (ht.trans he)
  · exact .inl (ht.trans he)
  · exact .inl (ht.trans he)
  · exact .inr (hs.takeStop hp)

theorem OutputMove.kept {s t : State} (h : OutputMove s t) : OutputsKept s t := by
  refine ⟨h.responses, ?_, h.sinks, h.log⟩
  rcases h.line with he | ⟨⟨_, img, _, ht⟩, _⟩
  · rw [he]
    exact .refl _
  · exact ⟨_, ht⟩

/-! ### Every move -/

/-- What the block's own micro-step puts out. After it has sent, a read is in flight or no burst waits, so a held stop that is
taken at once takes no burst away. -/
structure OwnOutput (s t : State) : Prop extends OutputMove s t where
  reads : t.tx = s.tx ∨ (t.readInFlight = false → t.rxPending = [])

theorem OwnOutput.quiet {s t : State} (ht : t.tx = s.tx) (hr : Extends s.responses t.responses := by simp)
    (hs : Extends s.sinks t.sinks := by simp) (hl : Extends s.log t.log := by simp) : OwnOutput s t :=
  ⟨.quiet ht hr hs hl, .inl ht⟩

theorem OwnOutput.finishHostRead (s : State) : OwnOutput s s.finishHostRead := by
  obtain ⟨f, m, n, es, r, _, e⟩ := s.finishHostRead_effect
  rw [e]
  exact .quiet rfl

/-- A sending micro-step, with what it writes beside the line: `t` is the state it leads to, a read or `P2_CHECK`. -/
theorem OwnOutput.of_send {s t : State} (h d : Bytes) (hf : t.txf = sendFrame h d) (ht : t.tx = (s.send h d).tx)
    (hl : t.log = (s.send h d).log) (hr : t.received = s.received) (hp : t.responses = s.responses)
    (hs : t.sinks = s.sinks) (hu : isReading t.upc = true ∨ t.upc = .p2Check) : OwnOutput s t := by
  refine ⟨⟨hp ▸ .refl _, hs ▸ .refl _, ⟨_, hl⟩, .inr (.of_send h d hf ht hr)⟩, .inr fun hn => ?_⟩
  rcases hu with hu | hu
  · simp [State.readInFlight, hu] at hn
  · exact (by simpa [State.readInFlight, hu] using hn : _ ∧ _).2

theorem OwnMove.output {s t : State} (h : OwnMove s t) : OwnOutput s t := by
  cases h with
  | authSend d => exact .of_send _ d rfl rfl rfl rfl rfl rfl (.inl rfl)
  | p1Send | p3Send | p4Send => exact .of_send _ _ rfl rfl rfl rfl rfl rfl (.inl rfl)
  | xSend bs => exact .of_send bs _ rfl rfl rfl rfl rfl rfl (.inl rfl)
  | p2Send => exact .of_send _ _ rfl rfl rfl rfl rfl rfl (.inr rfl)
  | hostRead => exact .finishHostRead s
  | authRead =>
    obtain ⟨f, m, n, es, _, e | e⟩ := authReadStep_effect s <;> rw [e] <;> exact .quiet rfl
  | authSleep =>
    obtain ⟨_, e⟩ | ⟨_, e⟩ := authSleepDone_effect s <;> rw [e] <;> exact .quiet rfl
  | p1Read =>
    obtain ⟨f, m, n, es, _, e | ⟨p, e⟩ | ⟨p, e⟩⟩ := p1ReadStep_effect s <;> rw [e] <;> exact .quiet rfl
  | p2CheckRead =>
    obtain ⟨f, m, n, es, _, e⟩ := p2CheckRead_effect s
    rw [e]
    exact .quiet rfl
  | p3Read =>
    obtain ⟨f, m, n, es, _, e⟩ := p3ReadStep_effect s
    rw [e]
    exact .quiet rfl
  | p4Read =>
    obtain ⟨f, m, n, es, _, ⟨_, e⟩ | e⟩ := p4ReadStep_effect s <;> rw [e] <;> exact .quiet rfl
  | xRead p hp =>
    obtain ⟨f, m, n, es, _, ⟨_, _, _, _, _, _, e⟩ | ⟨_, _, e⟩⟩ := xReadStep_effect hp s <;> rw [e] <;>
      exact .quiet rfl
  | rest | p2CheckNone | p2Wait | p4Wait | xSleep => exact .quiet rfl (.refl _) (.refl _) (.refl _)

/-- The only host command that puts bytes on the line is `WRITE`. -/
theorem HostMove.output {s t : State} (h : HostMove s t) : OutputMove s t := by
  cases h with
  | write fs img hb hp hi => exact ⟨by simp, by simp, by simp, .inr (.write hi)⟩
  | responds | image | closePort | readWaits | runInit | readData | stopHeld => exact .quiet rfl
  | fresh | codec | openPort | runAuth => exact .quiet (by simp)
  | readEnds => exact (OwnOutput.finishHostRead s).toOutputMove
  | stop => exact (OutputMove.quiet rfl).takeStop (.inl rfl)

theorem step_output {s t : State} (hr : ∀ rest, s.inputs ≠ .reset :: rest) (h : step s = .next t) : OutputMove s t := by
  cases step_move h with
  | reset rest hi => exact absurd hi (hr rest)
  | host c rest t hi _ hm => exact hm.output.of_takeInput
  | arrive b rest =>
    unfold State.arrive
    split <;> exact .quiet rfl
  | own rest u hi hm => exact hm.output.of_takeInput
  | ownStopped rest u hi hm _ hn =>
    exact (hm.output.takeStop (hm.output.reads.imp_right fun hp => hp hn)).of_takeInput

/-- Settles O54: every move but a reset is an `OutputMove`. -/
theorem outputsOnlyGrow : Obligations.OutputsOnlyGrow :=
  fun _ _ hr hstep => (step_output hr hstep).kept

/-- Settles O55: an `OutputMove` that changes the TX stream is a transmission, whose image is written out by its fields. -/
theorem halfDuplexFrames : Obligations.HalfDuplexFrames := by
  intro s t hr hstep hne
  obtain ⟨⟨fs, img, hi, ht⟩, hrec⟩ := (step_output hr hstep).line.resolve_left hne
  obtain ⟨hdr, n, d, c, hh, hn, hd, hc, rfl⟩ := Frame.image_eq_some hi
  simp only [State.received, Prod.mk.injEq] at hrec
  exact ⟨⟨fs, hdr, n, d, c, hh, hn, hd, hc, by simp [ht, outbound, Config.frameEnd]⟩, hrec⟩

end Sys2Proof.Machine
end

section
/-!
PROOFS. A host command in a step: the decoder reads every well-formed host operation back from its encoding, format by format
(30_encoding.md R98, R99), and the step then runs it (20_memory.md R64, R77).
-/

namespace Sys2Proof

/-! ### The formats read back what the encoder writes -/

theorem parseC1_encode (mk : FrameSel → Instr) (fs : FrameSel) : parseC1 mk [fs.code] = .ok (mk fs) := by
  simp only [parseC1, parseFs_code]
  rfl

theorem parseC2_encode (mk : FrameSel → Fmt → Instr) (fs : FrameSel) (fmt : Fmt) :
    parseC2 mk [fs.code, fmt.code] = .ok (mk fs fmt) := by
  simp only [parseC2, parseFs_code, parseFmt_code]
  rfl

theorem parseC3_encode (mk : FrameSel → Bool → Operand → Instr) (fs : FrameSel) (verify : Bool) {r : Operand}
    (hr : r.wf = true) : parseC3 mk (fs.code :: verifyFlag verify :: encodeOperand r) = .ok (mk fs verify r) := by
  have e : parseOperand (encodeOperand r) = .ok (r, []) := by simpa using parseOperand_encode hr []
  simp only [parseC3, parseFs_code, parseVerify_flag, e]
  rfl

theorem parseC4_encode (mk : FrameSel → Option Operand → Option Operand → Instr) (fs : FrameSel) {h d : Option Operand}
    (hh : Operand.optWf h = true) (hd : Operand.optWf d = true) :
    parseC4 mk (fs.code :: pmask h d :: (encodeOptional h ++ encodeOptional d)) = .ok (mk fs h d) := by
  obtain ⟨hz, hb0, hb1⟩ := pmask_bits h d
  have e : parseOptional d.isSome (encodeOptional d) = .ok (d, []) := by simpa using parseOptional_encode hd []
  simp only [parseC4, parseFs_code, if_neg hz, hb0, hb1, parseOptional_encode hh, bind, Except.bind, e]
  rfl

theorem parseC5_encode (mk : User → Word16 → Word32 → Instr) (user : User) (m : Word16) (w : Word32) :
    parseC5 mk (user.code.setWidth 8 :: (be16 m ++ be32 w)) = .ok (mk user m w) := by
  simp only [be16, be32, List.cons_append, List.nil_append, parseC5, parseUser_code, join16_be16, join32_be32]
  rfl

theorem parseC6_encode (mk : Bool → BitVec 3 → Word32 → Instr) (ufc : Bool) (sinks : BitVec 3) (p : Word32) :
    parseC6 mk (readDataFlags ufc sinks :: be32 p) = .ok (mk ufc sinks p) := by
  obtain ⟨hz, hb, hk⟩ := readDataFlags_bits ufc sinks
  simp only [be32, parseC6, if_neg hz, hb, hk, join32_be32]
  rfl

theorem parseC7_encode (mk : Byte → Instr) {idx : Byte} (hi : idx.toNat < Config.numRegisters) :
    parseC7 mk [idx] = .ok (mk idx) := by
  simp only [parseC7, if_pos hi]
  rfl

/-- A well-formed host operation is read back from its own bytes, by its format. -/
theorem decodeHost_encode {i : Instr} (hw : i.wf = true) (hk : i.kind = .hostOperation) :
    decodeHost (encode i) = .ok i := by
  cases i with
  | fnew fs | setChecksum fs | getRaw fs | getHex fs | write fs => exact parseC1_encode _ fs
  | getHeader fs fmt | getData fs fmt | getDataSize fs fmt | getChecksum fs fmt => exact parseC2_encode _ fs fmt
  | setHeader fs v r | setDataSize fs v r | setData fs v r | setChecksumV fs v r => exact parseC3_encode _ fs v hw
  | prepare fs h d =>
    obtain ⟨hh, hd⟩ := Bool.and_eq_true_iff.1 hw
    exact parseC4_encode _ fs hh hd
  | runAuth u m w => exact parseC5_encode _ u m w
  | readData c k p => exact parseC6_encode _ c k p
  | rdReg idx => exact parseC7_encode _ (by simpa [Instr.wf] using hw)
  | openPort | read | closePort | pollRx | runInit | stop => rfl
  | raPlumber | raNormal | raNormalAlt | raService | maProbe | m2Probe | rbAck | m1Req | m2Req | m3Req | echoProbe
  | rspMDigit | rspM1 | rspM2 | rspM3 | rspOther | rspAuth => cases hk

namespace Machine

theorem hostStep_encode {i : Instr} (hw : i.wf = true) (hk : i.kind = .hostOperation) (s : State) :
    hostStep (encode i) s = exec i s := by
  simp only [hostStep, decode, decodeHost_encode hw hk]

theorem step_host {s : State} {c : Bytes} {rest : List Input} (hr : s.readReady = false)
    (hi : s.inputs = .host c :: rest) : step s = hostStep c { s with inputs := rest } := by
  simp [step, hi, hr]

/-- Settles O5: the step hands the command to `hostStep`, which decodes it to the operation it encodes. -/
theorem stepRunsHostCommand : Obligations.StepRunsHostCommand := by
  intro s i rest hw hk hr hi
  rw [step_host hr hi, hostStep_encode hw hk]

end Machine
end Sys2Proof
end

section
/-!
PROOFS. The encodings (30_encoding.md R98, R99, R107, 43_wire_frames.md R240 to R256): every well-formed instruction is read
back on its own channel, and what is read on the host or the reply channel is the encoding of what it is read as.
-/

namespace Sys2Proof

/-! ### The line reads back what the encoder writes -/

/-- An echo probe whose header is not `MA_PROBE`'s is read from its own bytes, by the length of its header (R244, R250). -/
theorem decodeProbe_encode {p : Byte} {q : Option Byte} (h : (⟨p, q⟩ : Hdr) ≠ maHeader) :
    decodeProbe (encode (.echoProbe p q)) = .ok (.echoProbe p q) := by
  cases q with
  | none => simp [decodeProbe, encode, be16, decodeEcho, Config.frameEnd]
  | some q =>
    have hpq : ¬(p = 0x4D ∧ q = 0x41) := fun e => h (by rw [e.1, e.2]; rfl)
    have hne : encode (.echoProbe p (some q)) ≠ [0x4D, 0x41, 0x01, 0x01, 0x00, 0x90, 0x0D] := fun e =>
      hpq ⟨(List.cons.inj e).1, (List.cons.inj (List.cons.inj e).2).1⟩
    rw [decodeProbe, if_neg hne]
    simp [encode, be16, decodeEcho, Config.frameEnd, h]

theorem decodeReply_mDigit (digit : BitVec 4) : decodeReply .p1Read true 0x4D (0x3#4 ++ digit) = .ok (.rspMDigit digit) := by
  revert digit
  decide

/-- Settles O1: a host operation is read back by its format, a request by its bytes, a reply class by its header. -/
theorem decodeEncode : Obligations.DecodeEncode := by
  intro i hw
  cases i with
  | fnew | setHeader | setDataSize | setData | setChecksum | setChecksumV | prepare | getHeader | getData | getDataSize
  | getChecksum | getRaw | getHex | openPort | write | read | closePort | pollRx | runAuth | runInit | readData | stop
  | rdReg => exact decodeHost_encode hw rfl
  | raPlumber | raNormal | raNormalAlt | raService | maProbe | m2Probe | rbAck | m1Req | m2Req | m3Req => rfl
  | echoProbe p q => exact decodeProbe_encode (of_decide_eq_true hw)
  | rspMDigit digit => exact decodeReply_mDigit digit
  | rspM1 | rspM2 | rspM3 | rspOther | rspAuth => rfl

/-! ### What is read is the encoding of what it is read as -/

theorem opcode_eq {op : Byte} {k : Nat} (h : op.toNat = k) : op = BitVec.ofNat 8 k := by
  rw [← h, BitVec.ofNat_toNat, BitVec.setWidth_eq]

/-- A host command that decodes is the encoding of a well-formed operation, by the format of its opcode (R98). -/
theorem decodeHost_encodes {c : Bytes} {i : Instr} (h : decodeHost c = .ok i) : i.wf = true ∧ encode i = c := by
  unfold decodeHost at h
  split at h
  · cases h
  · split at h
    case h_1 hop | h_5 hop | h_12 hop | h_13 hop | h_15 hop =>
      obtain ⟨fs, rfl, rfl⟩ := parseC1_ok h
      exact ⟨rfl, by rw [opcode_eq hop]; rfl⟩
    case h_8 hop | h_9 hop | h_10 hop | h_11 hop =>
      obtain ⟨fs, fmt, rfl, rfl⟩ := parseC2_ok h
      exact ⟨rfl, by rw [opcode_eq hop]; rfl⟩
    case h_2 hop | h_3 hop | h_4 hop | h_6 hop =>
      obtain ⟨fs, v, r, rfl, hr, rfl⟩ := parseC3_ok h
      exact ⟨hr, by rw [opcode_eq hop]; rfl⟩
    case h_7 hop =>
      obtain ⟨fs, ho, dop, rfl, hh, hd, rfl⟩ := parseC4_ok h
      exact ⟨Bool.and_eq_true_iff.2 ⟨hh, hd⟩, by rw [opcode_eq hop]; rfl⟩
    case h_19 hop =>
      obtain ⟨u, m, w, rfl, rfl⟩ := parseC5_ok h
      exact ⟨rfl, by rw [opcode_eq hop]; rfl⟩
    case h_21 hop =>
      obtain ⟨ufc, k, p, rfl, rfl⟩ := parseC6_ok h
      exact ⟨rfl, by rw [opcode_eq hop]; rfl⟩
    case h_23 hop =>
      obtain ⟨k, rfl, hk, rfl⟩ := parseC7_ok h
      exact ⟨decide_eq_true hk, by rw [opcode_eq hop]; rfl⟩
    case h_14 hop | h_16 hop | h_17 hop | h_18 hop | h_20 hop | h_22 hop =>
      obtain ⟨rfl, rfl⟩ := finish_ok h
      exact ⟨rfl, by rw [opcode_eq hop]; rfl⟩
    case h_24 => cases h

/-- The exit test of phase 1 says that the header is `M` and a byte of high nibble 3 (R251). -/
theorem encode_mDigit {p q : Byte} (h : isMDigit p q = true) : encode (.rspMDigit (q.extractLsb' 0 4)) = [p, q] := by
  obtain ⟨hp, hq⟩ := Bool.and_eq_true_iff.1 h
  have key : ∀ q : Byte, q.extractLsb' 4 4 = 0x3#4 → 0x3#4 ++ q.extractLsb' 0 4 = q := by decide
  rw [of_decide_eq_true hp, encode, key q (of_decide_eq_true hq)]
  rfl

/-- The four classes of the data-exchange loop keep the header (R252 to R255). -/
theorem classifyExchange_encodes (p q : Byte) :
    (classifyExchange p q).kind = .wireReplyClass ∧ encode (classifyExchange p q) = [p, q] := by
  unfold classifyExchange
  split
  case isTrue h => obtain ⟨rfl, rfl⟩ := h; exact ⟨rfl, rfl⟩
  split
  case isTrue h => obtain ⟨rfl, rfl⟩ := h; exact ⟨rfl, rfl⟩
  split
  case isTrue h => obtain ⟨rfl, rfl⟩ := h; exact ⟨rfl, rfl⟩
  exact ⟨rfl, rfl⟩

/-- A reply header's class at a reading micro-state has that header's bytes (R251 to R256). -/
theorem decodeReply_encodes {u : Upc} {readsOk : Bool} {p q : Byte} {i : Instr} (h : decodeReply u readsOk p q = .ok i) :
    i.kind = .wireReplyClass ∧ encode i = [p, q] := by
  unfold decodeReply at h
  split at h <;> cases h
  case h_1 => cases readsOk <;> exact ⟨rfl, rfl⟩
  case h_2 =>
    split
    case isTrue hm => exact ⟨rfl, encode_mDigit hm⟩
    case isFalse => exact ⟨rfl, rfl⟩
  case h_3 | h_4 | h_5 => exact ⟨rfl, rfl⟩
  case h_6 => exact classifyExchange_encodes p q

/-- Only a header of two bytes is in a class. -/
theorem decode_rx_ok {u : Upc} {readsOk : Bool} {c : Bytes} {i : Instr} (h : decode (.rx u readsOk) c = .ok i) :
    ∃ p q, c = [p, q] ∧ decodeReply u readsOk p q = .ok i := by
  match c with
  | [p, q] => exact ⟨p, q, rfl, h⟩
  | [] | [_] | _ :: _ :: _ :: _ => cases h

/-- Settles O2: a command by its format, a reply header by its class. -/
theorem decodedIsEncoding : Obligations.DecodedIsEncoding := by
  refine ⟨fun c i h => ?_, fun u ok c i h => ?_⟩
  · obtain ⟨hw, he⟩ := decodeHost_encodes h
    exact ⟨hw, decodeHost_kind h, he⟩
  · obtain ⟨p, q, rfl, hr⟩ := decode_rx_ok h
    exact decodeReply_encodes hr

end Sys2Proof
end

section
/-!
PROOFS. Rejected commands (30_encoding.md R101, R102): a command that decodes has the fields its format writes, so one with a
field that no encoding has does not decode, and the block answers `ILLEGAL`.
-/

namespace Sys2Proof

/-- A host command that encodes no operation. -/
def Rejected (c : Bytes) : Prop := ∀ i, decodeHost c ≠ .ok i

/-! ### The range of each field (30_encoding.md R98) -/

theorem FrameSel.code_lt (fs : FrameSel) : fs.code.toNat < 2 := by cases fs <;> decide

theorem Fmt.code_lt (f : Fmt) : f.code.toNat < 4 := by cases f <;> decide

theorem User.code_lt (u : User) : (u.code.setWidth 8 : Byte).toNat < 4 := by cases u <;> decide

theorem verifyFlag_lt (v : Bool) : (verifyFlag v).toNat < 2 := by cases v <;> decide

theorem pmask_lt (h d : Option Operand) : (pmask h d).toNat < 4 := Nat.not_le.1 (pmask_bits h d).1

theorem readDataFlags_lt (ufc : Bool) (sinks : BitVec 3) : (readDataFlags ufc sinks).toNat < 16 :=
  Nat.not_le.1 (readDataFlags_bits ufc sinks).1

/-- The header of a repr operand: its tag is one of four, and its length field counts bytes that are there. -/
theorem encodeOperand_fields {r : Operand} {tag hi lo : Byte} {rest tail : Bytes} (hr : r.wf = true)
    (h : tag :: hi :: lo :: rest = encodeOperand r ++ tail) :
    tag.toNat < 4 ∧ 256 * hi.toNat + lo.toNat ≤ rest.length := by
  simp only [encodeOperand, be16, List.cons_append, List.nil_append, List.cons.injEq] at h
  obtain ⟨rfl, rfl, rfl, rfl⟩ := h
  have hl : r.payload.length < 65536 := of_decide_eq_true hr
  rw [← join16_toNat, join16_be16, BitVec.toNat_ofNat, Nat.mod_eq_of_lt hl, List.length_append]
  exact ⟨r.tag.code_lt, Nat.le_add_right _ _⟩

/-- An operand's own length field says where it ends, so what follows it is determined. -/
theorem encodeOperand_append_tail {r r' : Operand} {tail tail' : Bytes} (hr : r.wf = true) (hr' : r'.wf = true)
    (h : encodeOperand r ++ tail = encodeOperand r' ++ tail') : tail = tail' := by
  have e := parseOperand_encode hr tail
  rw [h, parseOperand_encode hr' tail'] at e
  cases e
  rfl

/-! ### The opcodes of each format (30_encoding.md R99) -/

def c1Opcodes : Bytes := [0x01, 0x05, 0x0C, 0x0D, 0x11]

def c2Opcodes : Bytes := [0x08, 0x09, 0x0A, 0x0B]

def c3Opcodes : Bytes := [0x02, 0x03, 0x04, 0x06]

theorem decodeHost_c1 {op : Byte} (h : op ∈ c1Opcodes) (bs : Bytes) : ∃ mk, decodeHost (op :: bs) = parseC1 mk bs := by
  simp only [c1Opcodes, List.mem_cons, List.not_mem_nil, or_false] at h
  obtain rfl | rfl | rfl | rfl | rfl := h
  exacts [⟨_, decodeHost_fnew bs⟩, ⟨_, decodeHost_setChecksum bs⟩, ⟨_, decodeHost_getRaw bs⟩, ⟨_, decodeHost_getHex bs⟩,
    ⟨_, decodeHost_write bs⟩]

theorem decodeHost_c2 {op : Byte} (h : op ∈ c2Opcodes) (bs : Bytes) : ∃ mk, decodeHost (op :: bs) = parseC2 mk bs := by
  simp only [c2Opcodes, List.mem_cons, List.not_mem_nil, or_false] at h
  obtain rfl | rfl | rfl | rfl := h
  exacts [⟨_, decodeHost_getHeader bs⟩, ⟨_, decodeHost_getData bs⟩, ⟨_, decodeHost_getDataSize bs⟩,
    ⟨_, decodeHost_getChecksum bs⟩]

theorem decodeHost_c3 {op : Byte} (h : op ∈ c3Opcodes) (bs : Bytes) : ∃ mk, decodeHost (op :: bs) = parseC3 mk bs := by
  simp only [c3Opcodes, List.mem_cons, List.not_mem_nil, or_false] at h
  obtain rfl | rfl | rfl | rfl := h
  exacts [⟨_, decodeHost_setHeader bs⟩, ⟨_, decodeHost_setDataSize bs⟩, ⟨_, decodeHost_setData bs⟩,
    ⟨_, decodeHost_setChecksumV bs⟩]

/-! ### What a command that decodes has in each field -/

theorem decodeHost_c1_ok {op : Byte} {bs : Bytes} {i : Instr} (hop : op ∈ c1Opcodes) (h : decodeHost (op :: bs) = .ok i) :
    ∃ fs, bs = [FrameSel.code fs] := by
  obtain ⟨mk, e⟩ := decodeHost_c1 hop bs
  obtain ⟨fs, hb, -⟩ := parseC1_ok (e ▸ h)
  exact ⟨fs, hb⟩

theorem decodeHost_c2_ok {op : Byte} {bs : Bytes} {i : Instr} (hop : op ∈ c2Opcodes) (h : decodeHost (op :: bs) = .ok i) :
    ∃ fs fmt, bs = [FrameSel.code fs, Fmt.code fmt] := by
  obtain ⟨mk, e⟩ := decodeHost_c2 hop bs
  obtain ⟨fs, fmt, hb, -⟩ := parseC2_ok (e ▸ h)
  exact ⟨fs, fmt, hb⟩

theorem decodeHost_c3_ok {op : Byte} {bs : Bytes} {i : Instr} (hop : op ∈ c3Opcodes) (h : decodeHost (op :: bs) = .ok i) :
    ∃ fs v r, bs = FrameSel.code fs :: verifyFlag v :: encodeOperand r ∧ r.wf = true := by
  obtain ⟨mk, e⟩ := decodeHost_c3 hop bs
  obtain ⟨fs, v, r, hb, hr, -⟩ := parseC3_ok (e ▸ h)
  exact ⟨fs, v, r, hb, hr⟩

theorem decodeHost_prepare_ok {bs : Bytes} {i : Instr} (h : decodeHost (0x07 :: bs) = .ok i) :
    ∃ fs ho dop, bs = FrameSel.code fs :: pmask ho dop :: (encodeOptional ho ++ encodeOptional dop) ∧
      Operand.optWf ho = true ∧ Operand.optWf dop = true := by
  obtain ⟨fs, ho, dop, hb, hh, hd, -⟩ := parseC4_ok (decodeHost_prepare bs ▸ h)
  exact ⟨fs, ho, dop, hb, hh, hd⟩

/-! ### The rejected commands -/

/-- R102: the opcodes no row has. -/
theorem rejected_opcode {op : Byte} (rest : Bytes)
    (hop : op = 0x00 ∨ op = 0x0E ∨ op = 0x0F ∨ (0x15 ≤ op.toNat ∧ op.toNat ≤ 0x1F) ∨ (0x24 ≤ op.toNat ∧ op.toNat ≤ 0x2F) ∨
      (0x31 ≤ op.toNat ∧ op.toNat ≤ 0xFF)) : Rejected (op :: rest) := by
  intro i h
  simp only [decodeHost] at h
  split at h
  case h_24 => cases h
  all_goals bv_omega

/-- R101: the frame select of every format that has one. -/
theorem rejected_frameSelect {op fs : Byte} (rest : Bytes)
    (hop : op ∈ ([0x01, 0x02, 0x03, 0x04, 0x05, 0x06, 0x07, 0x08, 0x09, 0x0A, 0x0B, 0x0C, 0x0D, 0x11] : Bytes))
    (hfs : 2 ≤ fs.toNat) : Rejected (op :: fs :: rest) := by
  intro i h
  have formats : ∀ op ∈ ([0x01, 0x02, 0x03, 0x04, 0x05, 0x06, 0x07, 0x08, 0x09, 0x0A, 0x0B, 0x0C, 0x0D, 0x11] : Bytes),
      op ∈ c1Opcodes ∨ op ∈ c2Opcodes ∨ op ∈ c3Opcodes ∨ op = 0x07 := by decide
  have isCode : ∃ f, fs = FrameSel.code f := by
    obtain h1 | h2 | h3 | rfl := formats op hop
    · obtain ⟨f, hb⟩ := decodeHost_c1_ok h1 h
      exact ⟨f, (List.cons.inj hb).1⟩
    · obtain ⟨f, fmt, hb⟩ := decodeHost_c2_ok h2 h
      exact ⟨f, (List.cons.inj hb).1⟩
    · obtain ⟨f, v, r, hb, -⟩ := decodeHost_c3_ok h3 h
      exact ⟨f, (List.cons.inj hb).1⟩
    · obtain ⟨f, ho, dop, hb, -⟩ := decodeHost_prepare_ok h
      exact ⟨f, (List.cons.inj hb).1⟩
  obtain ⟨f, rfl⟩ := isCode
  exact absurd f.code_lt (Nat.not_lt.2 hfs)

theorem rejected_format {op fs fmt : Byte} (rest : Bytes) (hop : op ∈ c2Opcodes) (hf : 4 ≤ fmt.toNat) :
    Rejected (op :: fs :: fmt :: rest) := by
  intro i h
  obtain ⟨fs, f, hb⟩ := decodeHost_c2_ok hop h
  cases hb
  exact absurd f.code_lt (Nat.not_lt.2 hf)

theorem rejected_user {user : Byte} (rest : Bytes) (hu : 4 ≤ user.toNat) : Rejected (0x20 :: user :: rest) := by
  intro i h
  obtain ⟨u, m, w, hb, -⟩ := parseC5_ok (decodeHost_runAuth (user :: rest) ▸ h)
  cases hb
  exact absurd u.code_lt (Nat.not_lt.2 hu)

theorem rejected_verify {op fs flags : Byte} (rest : Bytes) (hop : op ∈ c3Opcodes) (hf : 2 ≤ flags.toNat) :
    Rejected (op :: fs :: flags :: rest) := by
  intro i h
  obtain ⟨fs, v, r, hb, -⟩ := decodeHost_c3_ok hop h
  cases hb
  exact absurd (verifyFlag_lt v) (Nat.not_lt.2 hf)

theorem rejected_pmask {fs mask : Byte} (rest : Bytes) (hm : 4 ≤ mask.toNat) : Rejected (0x07 :: fs :: mask :: rest) := by
  intro i h
  obtain ⟨fs, ho, dop, hb, -⟩ := decodeHost_prepare_ok h
  cases hb
  exact absurd (pmask_lt ho dop) (Nat.not_lt.2 hm)

theorem rejected_readDataFlags {flags : Byte} (rest : Bytes) (hf : 16 ≤ flags.toNat) : Rejected (0x22 :: flags :: rest) := by
  intro i h
  obtain ⟨ufc, k, p, hb, -⟩ := parseC6_ok (decodeHost_readData (flags :: rest) ▸ h)
  cases hb
  exact absurd (readDataFlags_lt ufc k) (Nat.not_lt.2 hf)

theorem rejected_reprTag {op fs flags tag : Byte} (rest : Bytes) (hop : op ∈ c3Opcodes) (ht : 4 ≤ tag.toNat) :
    Rejected (op :: fs :: flags :: tag :: rest) := by
  intro i h
  obtain ⟨fs, v, r, hb, -⟩ := decodeHost_c3_ok hop h
  cases hb
  exact absurd r.tag.code_lt (Nat.not_lt.2 ht)

theorem rejected_reprLength {op fs flags tag hi lo : Byte} {rest : Bytes} (hop : op ∈ c3Opcodes)
    (hl : rest.length < 256 * hi.toNat + lo.toNat) : Rejected (op :: fs :: flags :: tag :: hi :: lo :: rest) := by
  intro i h
  obtain ⟨fs, v, r, hb, hr⟩ := decodeHost_c3_ok hop h
  simp only [List.cons.injEq] at hb
  obtain ⟨-, -, hb⟩ := hb
  have := encodeOperand_fields (tail := []) hr (by rw [hb, List.append_nil])
  omega

/-- The first operand that is present stands at the head of `PREPARE`'s operands. -/
theorem prepare_first_operand {ho dop : Option Operand} (hm : 1 ≤ (pmask ho dop).toNat) (hh : Operand.optWf ho = true)
    (hd : Operand.optWf dop = true) :
    ∃ r tail, encodeOptional ho ++ encodeOptional dop = encodeOperand r ++ tail ∧ r.wf = true := by
  cases ho with
  | some r => exact ⟨r, _, rfl, hh⟩
  | none =>
    cases dop with
    | some r => exact ⟨r, [], (List.append_nil _).symm, hd⟩
    | none => exact absurd hm (by decide)

theorem rejected_prepareFirst {fs mask tag hi lo : Byte} {rest : Bytes} (hm : 1 ≤ mask.toNat)
    (hbad : 4 ≤ tag.toNat ∨ rest.length < 256 * hi.toNat + lo.toNat) :
    Rejected (0x07 :: fs :: mask :: tag :: hi :: lo :: rest) := by
  intro i h
  obtain ⟨fs, ho, dop, hb, hh, hd⟩ := decodeHost_prepare_ok h
  simp only [List.cons.injEq] at hb
  obtain ⟨-, rfl, hb⟩ := hb
  obtain ⟨r, tail, e, hr⟩ := prepare_first_operand hm hh hd
  have := encodeOperand_fields hr (hb.trans e)
  omega

/-- The mask of a `PREPARE` with both operands present. -/
theorem both_of_pmask {ho dop : Option Operand} (h : pmask ho dop = 3) : ∃ r r', ho = some r ∧ dop = some r' := by
  obtain ⟨-, h0, h1⟩ := pmask_bits ho dop
  rw [h] at h0 h1
  exact ⟨_, _, Option.eq_some_of_isSome h0.symm, Option.eq_some_of_isSome h1.symm⟩

theorem rejected_prepareSecond {fs tag hi lo : Byte} {h : Operand} {rest : Bytes} (hh : h.wf = true)
    (hbad : 4 ≤ tag.toNat ∨ rest.length < 256 * hi.toNat + lo.toNat) :
    Rejected (0x07 :: fs :: 3 :: (encodeOperand h ++ tag :: hi :: lo :: rest)) := by
  intro i hd
  obtain ⟨fs, ho, dop, hb, hho, hdop⟩ := decodeHost_prepare_ok hd
  simp only [List.cons.injEq] at hb
  obtain ⟨-, hm, hb⟩ := hb
  obtain ⟨r, r', rfl, rfl⟩ := both_of_pmask hm.symm
  have e := encodeOperand_append_tail hh hho hb
  have := encodeOperand_fields (tail := []) hdop (e.trans (List.append_nil _).symm)
  omega

theorem rejected_register {idx : Byte} (rest : Bytes) (hi : 27 ≤ idx.toNat) : Rejected (0x30 :: idx :: rest) := by
  intro i h
  obtain ⟨k, hb, hk, -⟩ := parseC7_ok (decodeHost_rdReg (idx :: rest) ▸ h)
  cases hb
  exact absurd hk (Nat.not_lt.2 hi)

namespace Machine

theorem hostStep_rejected {c : Bytes} (h : Rejected c) (s : State) : hostStep c s = .next (s.respond .illegal) := by
  cases hd : decodeHost c with
  | ok i => exact absurd hd (h i)
  | error e => simp only [hostStep, decode, hd]

/-- Settles O3: the step answers a rejected command with `ILLEGAL`; each malformed class is rejected by the field it breaks. -/
theorem illegalEncodings : Obligations.IllegalEncodings := by
  refine ⟨fun s c rest hc hr hi => ?_, fun _ rest => rejected_opcode rest, fun _ _ rest => rejected_frameSelect rest,
    fun _ _ _ rest => rejected_format rest, fun _ rest => rejected_user rest, fun _ _ _ rest => rejected_verify rest,
    fun _ _ rest => rejected_pmask rest, fun _ rest => rejected_readDataFlags rest, fun _ _ _ _ rest => rejected_reprTag rest,
    fun _ _ _ _ _ _ _ => rejected_reprLength, fun _ _ _ _ _ _ => rejected_prepareFirst,
    fun _ _ _ _ _ _ => rejected_prepareSecond, fun _ rest => rejected_register rest⟩
  rw [step_host hr hi, hostStep_rejected hc]
  rfl

end Machine
end Sys2Proof
end

section
/-!
PROOFS. The wire row the sequencer is at is told by the bytes of the line (30_encoding.md R107, 43_wire_frames.md R240 to
R256), and words written out from the spec.
-/

namespace Sys2Proof.Machine

/-! ### The request row is read back where it is sent -/

theorem authRequest_decodes (u : User) : decode (.tx .authSend) (encode (authRequest u)) = .ok (authRequest u) := by
  cases u <;> rfl

theorem probe_decodes (h : Hdr) : decode (.tx .p1Send) (encode (probe h)) = .ok (probe h) := by
  unfold probe
  split
  case isTrue => rfl
  case isFalse hne => exact decodeProbe_encode hne

theorem exchangeRequest_decodes (lastHdr : Option Hdr) (toggle : Bool) :
    decode (.tx .xSend) (encode (exchangeRequest lastHdr toggle)) = .ok (exchangeRequest lastHdr toggle) := by
  unfold exchangeRequest
  split
  case isTrue => rfl
  case isFalse => cases toggle <;> rfl

/-- Each sending micro-state's row, whatever the registers that select it hold. -/
theorem fetchRequest_decodes {s : State} {i : Instr} (h : fetchRequest s = some i) :
    decode (.tx s.upc) (encode i) = .ok i := by
  unfold fetchRequest at h
  split at h <;> cases h
  case h_1 hu => rw [hu]; exact authRequest_decodes s.user
  case h_2 hu => rw [hu]; exact probe_decodes s.probeHdr
  case h_6 hu => rw [hu]; exact exchangeRequest_decodes s.lastHdr s.toggle
  case h_3 hu | h_4 hu | h_5 hu => rw [hu]; rfl

/-! ### The reply row is the class of the waiting burst's header -/

theorem fetchRequest_reading {s : State} (h : isReading s.upc = true ∨ s.upc = .p2Check) : fetchRequest s = none := by
  unfold fetchRequest
  split
  case h_7 => rfl
  case h_1 hu | h_2 hu | h_3 hu | h_4 hu | h_5 hu | h_6 hu => simp [hu, isReading] at h

theorem fetchReply_burst {s : State} {b : Burst} {rest : List Burst} {q : Byte} {r : Bytes} (hb : s.rxPending = b :: rest)
    (hq : b.rest = q :: r) : fetchReply s = (decodeReply s.upc (readsOk b) b.first q).toOption := by
  simp only [fetchReply, hb, hq]

/-- Settles O6: requests by their bytes, replies by the first two bytes of the burst that waits. -/
theorem fetchIsDecode : Obligations.FetchIsDecode := by
  refine fun s => ⟨fun i hi => ⟨fetchRequest_decodes hi, fetchWire_send hi⟩, fun b rest q r hb hq hu => ?_⟩
  rw [fetchWire_reply (fetchRequest_reading hu), fetchReply_burst hb hq]
  rfl

/-- Settles O4: the decoder is run on each word. -/
theorem sampleWordsDecode : Obligations.SampleWordsDecode := by
  unfold Obligations.SampleWordsDecode
  decide

end Sys2Proof.Machine
end

section
/-!
PROOFS. The bytes of the responses (30_encoding.md R100).
-/

namespace Sys2Proof

/-! ### Big-endian numbers (00_scope.md R13) -/

theorem unbe_append_singleton (s : Bytes) (b : Byte) : unbe (s ++ [b]) = unbe s * 256 + b.toNat := by
  simp [unbe]

theorem unbe_append (s t : Bytes) : unbe (s ++ t) = unbe s * 256 ^ t.length + unbe t := by
  induction t using List.reverseRecOn with
  | nil => simp [unbe]
  | append_singleton t b ih =>
    rw [← List.append_assoc, unbe_append_singleton, unbe_append_singleton, ih, List.length_append, List.length_singleton]
    ring

theorem unbe_be32 (v : Word32) : unbe (be32 v) = v.toNat := by
  rw [← congrArg BitVec.toNat (join32_be32 v), join32_toNat]
  simp only [be32, unbe, List.foldl]
  ring

theorem unbe_be64 (v : Word64) : unbe (be64 v) = v.toNat := by
  have hv := v.isLt
  rw [be64, unbe_append, unbe_be32, unbe_be32, BitVec.extractLsb'_toNat, BitVec.extractLsb'_toNat, Nat.shiftRight_eq_div_pow,
    Nat.shiftRight_eq_div_pow]
  simp only [be32, List.length]
  omega

namespace Machine

/-- Two digits for each byte (00_scope.md R13). -/
theorem hexOf_length (s : Bytes) : (hexOf s).length = 2 * s.length := by
  simp [hexOf, List.length_flatMap, Nat.mul_comm]

/-- Settles O12: each kind of response is its status byte and its payload; a register's eight bytes are its value. -/
theorem responseBytes : Obligations.ResponseBytes := by
  refine ⟨rfl, rfl, rfl, rfl, rfl, rfl, rfl, rfl, rfl, rfl, rfl, rfl, fun n => ⟨rfl, rfl⟩,
    fun s => ⟨rfl, rfl, ?hexDigits, rfl⟩, ?image, fun s => rfl, ?waiting, ?register⟩
  case hexDigits =>
    rw [← hexOf_length]
    rfl
  case image => intro i r s; cases i <;> cases r <;> rfl
  case waiting => intro b; cases b <;> rfl
  case register => exact fun v => ⟨be64 v, rfl, rfl, unbe_be64 v⟩

end Machine
end Sys2Proof
end

section
/-!
PROOFS. The checksum's arithmetic and the conversions of operands (40_codec.md R120 to R122, 10_state.md R36).
-/

namespace Sys2Proof.Machine

/-! ### The checksum and the counters -/

theorem checksum_toNat (h : Bytes) (n : Byte) (d : Bytes) :
    (checksum h n d).toNat = (n.toNat + sumBytes h + sumBytes d) % 65536 := by
  simp [checksum, Config.csumMod]

theorem sumBytes_perm {s t : Bytes} (h : s.Perm t) : sumBytes s = sumBytes t := (h.map BitVec.toNat).sum_eq

theorem sumBytes_le (s : Bytes) : sumBytes s ≤ 255 * s.length := by
  induction s with
  | nil => rfl
  | cons b s ih =>
    have hb := b.isLt
    simp only [sumBytes, List.map_cons, List.sum_cons, List.length_cons] at ih ⊢
    omega

theorem satInc_toNat {w : Nat} (c : BitVec w) : (satInc c).toNat = min (c.toNat + 1) (2 ^ w - 1) := by
  have hc := c.isLt
  unfold satInc
  split
  case isTrue hmax => simp [hmax]
  case isFalse hlow =>
    have hne : c.toNat ≠ 2 ^ w - 1 := fun e => hlow (BitVec.eq_of_toNat_eq (by simpa using e))
    have hlt : c.toNat + 1 < 2 ^ w := by omega
    have hone : 1 % 2 ^ w = 1 := Nat.mod_eq_of_lt (by omega)
    rw [BitVec.toNat_add, BitVec.toNat_ofNat, hone, Nat.mod_eq_of_lt hlt]
    omega

/-- Settles O10: each byte adds at most 255 to a sum that no permutation changes. -/
theorem checksumAndCounters : Obligations.ChecksumAndCounters := by
  refine ⟨fun h d n => ⟨checksum_toNat h n d, ?permuted, ?bound⟩, fun w c => satInc_toNat c⟩
  case permuted =>
    intro h' d' hh hd
    apply BitVec.eq_of_toNat_eq
    rw [checksum_toNat, checksum_toNat, sumBytes_perm hh, sumBytes_perm hd]
  case bound =>
    intro hh hd
    have hn := n.isLt
    have h1 : (h.map BitVec.toNat).sum ≤ 255 * h.length := sumBytes_le h
    have h2 : (d.map BitVec.toNat).sum ≤ 255 * d.length := sumBytes_le d
    omega

/-! ### Hex digits -/

theorem nibbles_toNat (x y : BitVec 4) : (x ++ y).toNat = 16 * x.toNat + y.toNat := by
  have hy := y.isLt
  rw [BitVec.toNat_append, Nat.shiftLeft_eq, Nat.mul_comm, ← Nat.two_pow_add_eq_or_of_lt (by omega)]

theorem eq_nibbles_iff (b : Byte) (x y : BitVec 4) : b = x ++ y ↔ b.toNat = 16 * x.toNat + y.toNat := by
  rw [← nibbles_toNat, BitVec.toNat_inj]

/-- The three ranges of digits and the value of each (30_encoding.md R97). -/
theorem digitValue_eq_some_iff (c : Byte) (x : BitVec 4) : digitValue c = some x ↔
    (0x30 ≤ c.toNat ∧ c.toNat ≤ 0x39 ∧ x.toNat = c.toNat - 0x30) ∨
    (0x41 ≤ c.toNat ∧ c.toNat ≤ 0x46 ∧ x.toNat = c.toNat - 0x41 + 10) ∨
    (0x61 ≤ c.toNat ∧ c.toNat ≤ 0x66 ∧ x.toNat = c.toNat - 0x61 + 10) := by
  have hx := x.isLt
  unfold digitValue
  split
  case isTrue => rw [Option.some.injEq, ← BitVec.toNat_inj, BitVec.toNat_ofNat]; omega
  split
  case isTrue => rw [Option.some.injEq, ← BitVec.toNat_inj, BitVec.toNat_ofNat]; omega
  split
  case isTrue => rw [Option.some.injEq, ← BitVec.toNat_inj, BitVec.toNat_ofNat]; omega
  case isFalse => simp only [reduceCtorEq, false_iff]; omega

theorem unhex_pair_eq_some_iff {a b : Byte} {p s : Bytes} : unhex (a :: b :: p) = some s ↔
    ∃ x y t, digitValue a = some x ∧ digitValue b = some y ∧ unhex p = some t ∧ (x ++ y) :: t = s := by
  cases ha : digitValue a <;> cases hb : digitValue b <;> cases hp : unhex p <;> simp [unhex, ha, hb, hp]

/-- Byte `k` of `s` is the one whose two digits stand at `2k` and `2k + 1` of `p` (40_codec.md R122). -/
def DigitsAt (p s : Bytes) (k : Nat) : Prop :=
  ∃ (x y : BitVec 4) (b : Byte), p[2 * k]?.bind digitValue = some x ∧ p[2 * k + 1]?.bind digitValue = some y ∧
    s[k]? = some b ∧ b.toNat = 16 * x.toNat + y.toNat

theorem digitsAt_zero {a b c : Byte} {p s : Bytes} : DigitsAt (a :: b :: p) (c :: s) 0 ↔
    ∃ x y, digitValue a = some x ∧ digitValue b = some y ∧ x ++ y = c := by
  simp [DigitsAt, ← eq_nibbles_iff, eq_comm]

theorem digitsAt_succ {a b c : Byte} {p s : Bytes} {k : Nat} :
    DigitsAt (a :: b :: p) (c :: s) (k + 1) ↔ DigitsAt p s k := Iff.rfl

/-- `unhex` digit by digit (40_codec.md R122). -/
theorem unhex_eq_some_iff : ∀ p s : Bytes, unhex p = some s ↔
    p.length = 2 * s.length ∧ ∀ k, k < s.length → DigitsAt p s k
  | [], s => by cases s <;> simp [unhex]
  | [_], s => by
    simp only [unhex, reduceCtorEq, List.length_singleton, false_iff, not_and]
    omega
  | a :: b :: p, [] => by simp [unhex_pair_eq_some_iff]
  | a :: b :: p, c :: s => by
    have hlen : (a :: b :: p).length = 2 * (c :: s).length ↔ p.length = 2 * s.length := by
      simp only [List.length_cons]
      omega
    rw [hlen, List.length_cons, Nat.forall_lt_succ_left]
    simp only [digitsAt_zero, digitsAt_succ]
    rw [and_left_comm, ← unhex_eq_some_iff p s, unhex_pair_eq_some_iff]
    simp only [List.cons.injEq]
    constructor
    · rintro ⟨x, y, t, hx, hy, ht, hc, rfl⟩
      exact ⟨⟨x, y, hx, hy, hc⟩, ht⟩
    · rintro ⟨⟨x, y, hx, hy, hc⟩, ht⟩
      exact ⟨x, y, s, hx, hy, ht, hc, rfl⟩

theorem digitValue_hexDigit (n : BitVec 4) : digitValue (hexDigit n) = some n := by
  revert n
  decide

theorem hexDigit_range (n : BitVec 4) : (0x30 ≤ (hexDigit n).toNat ∧ (hexDigit n).toNat ≤ 0x39) ∨
    (0x41 ≤ (hexDigit n).toNat ∧ (hexDigit n).toNat ≤ 0x46) := by
  revert n
  decide

theorem append_nibbles (b : Byte) : b.extractLsb' 4 4 ++ b.extractLsb' 0 4 = b := by
  have hb := b.isLt
  apply BitVec.eq_of_toNat_eq
  rw [nibbles_toNat, BitVec.extractLsb'_toNat, BitVec.extractLsb'_toNat, Nat.shiftRight_eq_div_pow, Nat.shiftRight_zero]
  omega

theorem unhex_hexOf (s : Bytes) : unhex (hexOf s) = some s := by
  induction s with
  | nil => rfl
  | cons b s ih =>
    exact unhex_pair_eq_some_iff.2
      ⟨_, _, s, digitValue_hexDigit _, digitValue_hexDigit _, ih, by rw [append_nibbles]⟩

theorem mem_hexOf {s : Bytes} {c : Byte} (h : c ∈ hexOf s) : ∃ n, c = hexDigit n := by
  obtain ⟨b, -, hc⟩ := List.mem_flatMap.1 h
  simp only [List.mem_cons, List.not_mem_nil, or_false] at hc
  exact hc.elim (fun e => ⟨_, e⟩) (fun e => ⟨_, e⟩)

/-! ### Sizes -/

theorem decodeSize_integer (p : Bytes) : decodeSize ⟨.integer, p⟩ =
    if unbe p ≤ 255 then .value (BitVec.ofNat 8 (unbe p)) else .refused := rfl

theorem decodeSize_rawBytes {p : Bytes} (h : p.length ≠ 1) : decodeSize ⟨.rawBytes, p⟩ = .refused := by
  match p with
  | [] => rfl
  | [_] => exact absurd rfl h
  | _ :: _ :: _ => rfl

/-- Settles O11: `unhex` is read digit by digit, and inverts `hexOf`. -/
theorem operandConversions : Obligations.OperandConversions := by
  refine ⟨fun p => ⟨rfl, rfl, rfl⟩, unhex_eq_some_iff, digitValue_eq_some_iff, ?sizes, fun b => rfl, ?uppercase⟩
  case sizes =>
    refine fun p => ⟨fun h => ?_, fun h => ?_, decodeSize_rawBytes, rfl, rfl⟩
    · rw [decodeSize_integer, if_pos h]
    · rw [decodeSize_integer, if_neg (by omega)]
  case uppercase =>
    refine fun s => ⟨unhex_hexOf s, hexOf_length s, fun c hc => ?_⟩
    obtain ⟨n, rfl⟩ := mem_hexOf hc
    exact hexDigit_range n

end Sys2Proof.Machine
end

section
/-!
PROOFS. The frame codec's operations (40_codec.md R124 to R136). Each meaning is reduced once to `finishCodec` or to a response;
what it comes to is then a fact about the frame alone.
-/

namespace Sys2Proof.Machine

/-! ### The meanings, with the host in control -/

section Idle

variable {s : State}

theorem exec_fnew (hb : s.busy = false) (fs : FrameSel) : exec (.fnew fs) s = .next (s.setFrame fs .fresh).respondOk :=
  State.direct_idle hb

theorem exec_setHeader (hb : s.busy = false) (fs : FrameSel) (v : Bool) (r : Operand) :
    exec (.setHeader fs v r) s = .next (s.finishCodec fs ((s.frame fs).setHeader r)) := State.direct_idle hb

theorem exec_setDataSize (hb : s.busy = false) (fs : FrameSel) (v : Bool) (r : Operand) :
    exec (.setDataSize fs v r) s = .next (s.finishCodec fs ((s.frame fs).setDataSize v r)) := State.direct_idle hb

theorem exec_setData (hb : s.busy = false) (fs : FrameSel) (v : Bool) (r : Operand) :
    exec (.setData fs v r) s = .next (s.finishCodec fs ((s.frame fs).setData v r)) := State.direct_idle hb

theorem exec_setChecksum (hb : s.busy = false) (fs : FrameSel) :
    exec (.setChecksum fs) s = .next (s.finishCodec fs (s.frame fs).setChecksum) := State.direct_idle hb

theorem exec_setChecksumV (hb : s.busy = false) (fs : FrameSel) (v : Bool) (r : Operand) :
    exec (.setChecksumV fs v r) s = .next (s.finishCodec fs ((s.frame fs).setChecksumV v r)) := State.direct_idle hb

theorem exec_prepare (hb : s.busy = false) (fs : FrameSel) (ho dop : Option Operand) :
    exec (.prepare fs ho dop) s = .next (s.finishCodec fs ((s.frame fs).prepare ho dop)) := State.direct_idle hb

theorem exec_getHeader (hb : s.busy = false) (fs : FrameSel) (fmt : Fmt) :
    exec (.getHeader fs fmt) s = .next (s.respond (fieldResponse fmt (s.frame fs).hdr)) := State.direct_idle hb

theorem exec_getData (hb : s.busy = false) (fs : FrameSel) (fmt : Fmt) :
    exec (.getData fs fmt) s = .next (s.respond (fieldResponse fmt (s.frame fs).data)) := State.direct_idle hb

theorem exec_getDataSize (hb : s.busy = false) (fs : FrameSel) (fmt : Fmt) :
    exec (.getDataSize fs fmt) s = .next (s.respond (fieldResponse fmt ((s.frame fs).size.map fun n => [n]))) :=
  State.direct_idle hb

theorem exec_getChecksum (hb : s.busy = false) (fs : FrameSel) (fmt : Fmt) :
    exec (.getChecksum fs fmt) s = .next (s.respond (fieldResponse fmt ((s.frame fs).csum.map be16))) :=
  State.direct_idle hb

theorem exec_getRaw (hb : s.busy = false) {fs : FrameSel} {img : Bytes} (h : (s.frame fs).image = some img) :
    exec (.getRaw fs) s = .next ((s.logEvents (s.frame fs).rawEvents).respond
      (.ok (.image (s.frame fs).rawInvalid (s.frame fs).rawReverify img))) := by
  refine (State.direct_idle hb).trans ?_
  rw [h]

theorem exec_getRaw_unset (hb : s.busy = false) {fs : FrameSel} (h : (s.frame fs).image = none) :
    exec (.getRaw fs) s = .next (s.respond .refused) := by
  refine (State.direct_idle hb).trans ?_
  rw [h]

theorem exec_getHex (hb : s.busy = false) {fs : FrameSel} {img : Bytes} (h : (s.frame fs).image = some img) :
    exec (.getHex fs) s = .next (s.respond (.ok (.hex (hexOf img)))) := by
  refine (State.direct_idle hb).trans ?_
  rw [Frame.hexForm, h, Option.map_some]

theorem exec_getHex_unset (hb : s.busy = false) {fs : FrameSel} (h : (s.frame fs).image = none) :
    exec (.getHex fs) s = .next (s.respond .refused) := by
  refine (State.direct_idle hb).trans ?_
  rw [Frame.hexForm, h, Option.map_none]

end Idle

/-! ### How a codec operation ends (60_exceptions.md R272) -/

theorem State.finishCodec_logged (s : State) (fs : FrameSel) (f : Frame) (es : List LogEvent) :
    s.finishCodec fs (.done f es) =
      { s.setFrame fs f with responses := s.responses ++ [.ok .empty], log := s.log ++ es } := by
  cases fs <;> rfl

theorem State.finishCodec_done (s : State) (fs : FrameSel) (f : Frame) :
    s.finishCodec fs (.done f []) = { s.setFrame fs f with responses := s.responses ++ [.ok .empty] } := by
  rw [State.finishCodec_logged, List.append_nil]
  cases fs <;> rfl

theorem State.finishCodec_typeMismatch (s : State) (fs : FrameSel) :
    s.finishCodec fs .typeMismatch = { s with responses := s.responses ++ [.typeMismatch] } := rfl

theorem State.finishCodec_sizeMismatch (s : State) (fs : FrameSel) :
    s.finishCodec fs .sizeMismatch = { s with responses := s.responses ++ [.sizeMismatch] } := rfl

theorem State.finishCodec_refused (s : State) (fs : FrameSel) :
    s.finishCodec fs .refused = { s with responses := s.responses ++ [.refused] } := rfl

/-! ### `FNEW` (R124) -/

/-- Settles O13: `setFrame` writes the selected register only. -/
theorem fnewResult : Obligations.FnewResult := by
  intro s hu hr
  have hb : s.busy = false := State.busy_false.2 ⟨hu, hr⟩
  exact ⟨fun fs => rfl, exec_fnew hb .txf, exec_fnew hb .rxf, fun f => ⟨rfl, rfl, rfl, rfl⟩⟩

/-! ### `SETHEADER` (R125) -/

section SetHeader

variable (f : Frame) {r : Operand} {h : Bytes}

theorem validAfterHeader_eq (valid : Bool) (h : Bytes) :
    validAfterHeader valid h = if h.length = 2 then valid else false := by
  by_cases hl : h.length = 2 <;> simp [validAfterHeader, Config.hdrLen, hl]

theorem Frame.setHeader_stored (hd : decodeBytes r = some h) (hl : h.length ≤ 255) :
    f.setHeader r = .done { f with hdr := some h, valid := if h.length = 2 then f.valid else false } [] := by
  have hcap : ¬Config.hdrMax < h.length := by simpa [Config.hdrMax] using hl
  simp only [Frame.setHeader, hd, if_neg hcap, Frame.withHeader, validAfterHeader_eq]

theorem Frame.setHeader_tooLong (hd : decodeBytes r = some h) (hl : 255 < h.length) : f.setHeader r = .refused := by
  simp [Frame.setHeader, hd, Config.hdrMax, hl]

theorem Frame.setHeader_rejected (hd : decodeBytes r = none) : f.setHeader r = .typeMismatch := by
  simp [Frame.setHeader, hd]

end SetHeader

/-- Settles O14: the operand's decoding and length decide between the three outcomes. -/
theorem setHeaderResult : Obligations.SetHeaderResult := by
  intro fs v r s hu hr
  have hb : s.busy = false := State.busy_false.2 ⟨hu, hr⟩
  rw [exec_setHeader hb]
  refine ⟨rfl, fun h hd hl => ?stored, fun h hd hl => ?tooLong, fun hd => ?rejected⟩
  case stored => rw [Frame.setHeader_stored _ hd hl, State.finishCodec_done]
  case tooLong => rw [Frame.setHeader_tooLong _ hd hl, State.finishCodec_refused]
  case rejected => rw [Frame.setHeader_rejected _ hd, State.finishCodec_typeMismatch]

/-! ### `SETDATASIZE` (R126) -/

section SetDataSize

variable {f : Frame} {v : Bool} {r : Operand} {n : Byte}

theorem Frame.sizeClash_iff : f.sizeClash n = true ↔ ∃ d, f.data = some d ∧ d.length ≠ n.toNat := by
  cases hd : f.data <;> simp [Frame.sizeClash, hd]

theorem Frame.setDataSize_stored (hd : decodeSize r = .value n) (hc : ¬(v = true ∧ f.sizeClash n = true)) :
    f.setDataSize v r = .done { f with size := some n } [] := by
  rw [← Bool.and_eq_true] at hc
  simp only [Frame.setDataSize, hd, if_neg hc, Frame.withSize]

theorem Frame.setDataSize_clash (hd : decodeSize r = .value n) (hc : f.sizeClash n = true) :
    f.setDataSize true r = .sizeMismatch := by
  simp [Frame.setDataSize, hd, hc]

theorem Frame.setDataSize_rejected (hd : decodeSize r = .typeMismatch) : f.setDataSize v r = .typeMismatch := by
  simp [Frame.setDataSize, hd]

theorem Frame.setDataSize_refused (hd : decodeSize r = .refused) : f.setDataSize v r = .refused := by
  simp [Frame.setDataSize, hd]

end SetDataSize

/-- Settles O15: a decoded size is stored unless `sizeClash` holds and is looked at. -/
theorem setDataSizeResult : Obligations.SetDataSizeResult := by
  intro fs v r s hu hr
  have hb : s.busy = false := State.busy_false.2 ⟨hu, hr⟩
  rw [exec_setDataSize hb]
  refine ⟨rfl, fun n hd hv => ?stored, fun n d hd hv he hl => ?clash, fun hd => ?rejected, fun hd => ?refused⟩
  case stored =>
    have hc : ¬(v = true ∧ (s.frame fs).sizeClash n = true) := by
      rintro ⟨hv', hc⟩
      obtain ⟨d, he, hl⟩ := Frame.sizeClash_iff.1 hc
      exact hl (hv hv' d he)
    rw [Frame.setDataSize_stored hd hc, State.finishCodec_done]
  case clash =>
    rw [hv, Frame.setDataSize_clash hd (Frame.sizeClash_iff.2 ⟨d, he, hl⟩), State.finishCodec_sizeMismatch]
  case rejected => rw [Frame.setDataSize_rejected hd, State.finishCodec_typeMismatch]
  case refused => rw [Frame.setDataSize_refused hd, State.finishCodec_refused]

/-! ### `SETDATA` (R127) -/

section SetData

variable {f : Frame} {v : Bool} {r : Operand} {d : Bytes} {n : Byte}

theorem Frame.dataClash_unset (hs : f.size = none) : f.dataClash d = false := by simp [Frame.dataClash, hs]

theorem Frame.dataClash_set (hs : f.size = some n) : f.dataClash d = true ↔ n.toNat ≠ d.length := by
  simp [Frame.dataClash, hs]

theorem Frame.withData_unset (hs : f.size = none) :
    f.withData d = { f with data := some d, size := some (BitVec.ofNat 8 d.length) } := by
  simp only [Frame.withData, hs]

theorem Frame.withData_set (hs : f.size = some n) : f.withData d = { f with data := some d } := by
  simp only [Frame.withData, hs]

theorem Frame.setData_of_accepted (hd : decodeBytes r = some d) (hl : d.length ≤ 255) :
    f.setData v r = if v = true ∧ f.dataClash d = true then .sizeMismatch else .done (f.withData d) [] := by
  have hcap : ¬Config.dataMax < d.length := by simpa [Config.dataMax] using hl
  simp only [Frame.setData, hd, if_neg hcap, Bool.and_eq_true]

theorem Frame.setData_tooLong (hd : decodeBytes r = some d) (hl : 255 < d.length) : f.setData v r = .refused := by
  simp [Frame.setData, hd, Config.dataMax, hl]

theorem Frame.setData_rejected (hd : decodeBytes r = none) : f.setData v r = .typeMismatch := by
  simp [Frame.setData, hd]

end SetData

/-- Settles O16: a set size decides `dataClash`, an unset one is derived by `withData`. -/
theorem setDataResult : Obligations.SetDataResult := by
  intro fs v r s hu hr
  have hb : s.busy = false := State.busy_false.2 ⟨hu, hr⟩
  rw [exec_setData hb]
  refine ⟨rfl, fun d hd hl hs => ?derived, fun d n hd hl hs hv => ?kept, fun d n hd hl hs hv hn => ?clash,
    fun d hd hl => ?tooLong, fun hd => ?rejected⟩
  case derived =>
    have hc : ¬(v = true ∧ (s.frame fs).dataClash d = true) := by simp [Frame.dataClash_unset hs]
    rw [Frame.setData_of_accepted hd hl, if_neg hc, Frame.withData_unset hs, State.finishCodec_done]
  case kept =>
    have hc : ¬(v = true ∧ (s.frame fs).dataClash d = true) := by
      rintro ⟨rfl, hc⟩
      exact (Frame.dataClash_set hs).1 hc (hv.resolve_left nofun)
    rw [Frame.setData_of_accepted hd hl, if_neg hc, Frame.withData_set hs, State.finishCodec_done]
  case clash =>
    rw [Frame.setData_of_accepted hd hl, if_pos ⟨hv, (Frame.dataClash_set hs).2 hn⟩, State.finishCodec_sizeMismatch]
  case tooLong => rw [Frame.setData_tooLong hd hl, State.finishCodec_refused]
  case rejected => rw [Frame.setData_rejected hd, State.finishCodec_typeMismatch]

/-! ### `SETCHECKSUM` and `SETCHECKSUMV` (R128, R129) -/

section Checksum

variable {f : Frame} {r : Operand} {b : Bytes} {c k : Word16}

theorem Frame.csOf_of_fields {h d : Bytes} {n : Byte} (hh : f.hdr = some h) (hn : f.size = some n)
    (hd : f.data = some d) : f.csOf = some (checksum h n d) := by
  simp only [Frame.csOf, hh, hn, hd]

theorem Frame.csOf_unset (h : f.hdr = none ∨ f.size = none ∨ f.data = none) : f.csOf = none := by
  unfold Frame.csOf
  split
  case h_1 hh hn hd => simp [hh, hn, hd] at h
  case h_2 => rfl

theorem Frame.setChecksum_of_csOf (h : f.csOf = some c) :
    f.setChecksum = .done { f with csum := some c, csumExt := false } [] := by
  simp only [Frame.setChecksum, h, Frame.withComputed]

theorem Frame.setChecksum_refused (h : f.csOf = none) : f.setChecksum = .refused := by
  simp only [Frame.setChecksum, h]

theorem Frame.supply_unverified : f.supply false c = .done { f with csum := some c, csumExt := true } [] := by
  simp [Frame.supply, Frame.withSupplied]

theorem Frame.supply_refused (h : f.csOf = none) : f.supply true c = .refused := by
  simp [Frame.supply, h]

theorem Frame.supply_match (h : f.csOf = some c) :
    f.supply true c = .done { f with csum := some c, csumExt := true } [] := by
  simp [Frame.supply, h, Frame.withSupplied]

theorem Frame.supply_mismatch (h : f.csOf = some k) (hne : c ≠ k) :
    f.supply true c = .done { f with csum := some c, csumExt := true, valid := false } [.wCsumMismatch] := by
  simp [Frame.supply, h, hne.symm, Frame.withSupplied]

theorem Frame.setChecksumV_twoBytes {p q : Byte} (v : Bool) (hd : decodeBytes r = some [p, q]) :
    f.setChecksumV v r = f.supply v (join16 p q) := by
  simp only [Frame.setChecksumV, hd]

theorem Frame.setChecksumV_otherLength (v : Bool) (hd : decodeBytes r = some b) (hl : b.length ≠ 2) :
    f.setChecksumV v r = .done { f with valid := false } [.wCsumLen] := by
  unfold Frame.setChecksumV
  split
  case h_1 e => simp [hd] at e
  case h_2 e =>
    obtain rfl : b = _ := Option.some.inj (hd.symm.trans e)
    exact absurd rfl hl
  case h_3 => rfl

theorem Frame.setChecksumV_rejected (v : Bool) (hd : decodeBytes r = none) : f.setChecksumV v r = .typeMismatch := by
  simp only [Frame.setChecksumV, hd]

theorem join16_eq_ofNat (p q : Byte) : join16 p q = BitVec.ofNat 16 (256 * p.toNat + q.toNat) := by
  rw [← join16_toNat, BitVec.ofNat_toNat, BitVec.setWidth_eq]

theorem join16_eq_iff {p q : Byte} : join16 p q = c ↔ 256 * p.toNat + q.toNat = c.toNat := by
  rw [← join16_toNat, BitVec.toNat_inj]

end Checksum

theorem setChecksum_result (fs : FrameSel) {s : State} (hb : s.busy = false) :
    (∀ h n d, (s.frame fs).hdr = some h → (s.frame fs).size = some n → (s.frame fs).data = some d →
      exec (.setChecksum fs) s = .next
        { s.setFrame fs { s.frame fs with csum := some (checksum h n d), csumExt := false } with
          responses := s.responses ++ [.ok .empty] }) ∧
    ((s.frame fs).hdr = none ∨ (s.frame fs).size = none ∨ (s.frame fs).data = none →
      exec (.setChecksum fs) s = .next { s with responses := s.responses ++ [.refused] }) := by
  rw [exec_setChecksum hb]
  refine ⟨fun h n d hh hn hd => ?computed, fun hu => ?unset⟩
  case computed => rw [Frame.setChecksum_of_csOf (Frame.csOf_of_fields hh hn hd), State.finishCodec_done]
  case unset => rw [Frame.setChecksum_refused (Frame.csOf_unset hu), State.finishCodec_refused]

/-- Settles O17: `SETCHECKSUMV` of two bytes is `supply`, whose outcome turns on `csOf` of the frame. -/
theorem checksumSetters : Obligations.ChecksumSetters := by
  refine ⟨fun fs s hu hr => ⟨rfl, setChecksum_result fs (State.busy_false.2 ⟨hu, hr⟩)⟩, fun fs v r s hu hr => ?_⟩
  have hb : s.busy = false := State.busy_false.2 ⟨hu, hr⟩
  rw [exec_setChecksumV hb]
  refine ⟨rfl, fun hd => ?rejected, fun b hd hl => ?otherLength, fun p q hd hv => ?unverified,
    fun p q hd hv hu => ?unset, fun p q h n d hd hv hh hn hdat hc => ?agrees,
    fun p q h n d hd hv hh hn hdat hc => ?differs⟩
  case rejected => rw [Frame.setChecksumV_rejected v hd, State.finishCodec_typeMismatch]
  case otherLength => rw [Frame.setChecksumV_otherLength v hd hl, State.finishCodec_logged]
  case unverified =>
    rw [Frame.setChecksumV_twoBytes v hd, hv, Frame.supply_unverified, State.finishCodec_done, join16_eq_ofNat]
  case unset =>
    rw [Frame.setChecksumV_twoBytes v hd, hv, Frame.supply_refused (Frame.csOf_unset hu), State.finishCodec_refused]
  case agrees =>
    rw [Frame.setChecksumV_twoBytes v hd, hv, join16_eq_iff.2 hc, Frame.supply_match (Frame.csOf_of_fields hh hn hdat),
      State.finishCodec_done]
  case differs =>
    rw [Frame.setChecksumV_twoBytes v hd, hv,
      Frame.supply_mismatch (Frame.csOf_of_fields hh hn hdat) (mt join16_eq_iff.1 hc), State.finishCodec_logged,
      join16_eq_ofNat]

/-! ### `PREPARE` (R130) -/

section Prepare

variable {f : Frame} {ho dop : Option Operand} {hb db : Option Bytes}

theorem decodeOptional_accepted {o : Option Operand} {b : Option Bytes} (h : o.map decodeBytes = b.map some) :
    decodeOptional o = some b := by
  cases o <;> cases b <;> simp_all [decodeOptional]

theorem decodeOptional_rejected {o : Option Operand} (h : o.map decodeBytes = some none) : decodeOptional o = none := by
  obtain ⟨r, rfl, hr⟩ := Option.map_eq_some_iff.1 h
  simp [decodeOptional, hr]

theorem overCap_iff {cap : Nat} {o : Option Bytes} : overCap cap o = true ↔ ∃ b, o = some b ∧ cap < b.length := by
  cases o <;> simp [overCap]

theorem Frame.prepare_of_accepted (hh : ho.map decodeBytes = hb.map some) (hd : dop.map decodeBytes = db.map some) :
    f.prepare ho dop =
      if (∃ b, hb = some b ∧ 255 < b.length) ∨ (∃ b, db = some b ∧ 255 < b.length) then .refused
      else .done (f.prepared hb db) [] := by
  simp only [Frame.prepare, decodeOptional_accepted hh, decodeOptional_accepted hd, Bool.or_eq_true, overCap_iff,
    Config.hdrMax, Config.dataMax]

theorem Frame.prepare_rejected (h : ho.map decodeBytes = some none ∨ dop.map decodeBytes = some none) :
    f.prepare ho dop = .typeMismatch := by
  unfold Frame.prepare
  split
  case h_1 e1 e2 =>
    rcases h with h | h
    · simp [decodeOptional_rejected h] at e1
    · simp [decodeOptional_rejected h] at e2
  case h_2 => rfl

theorem Frame.prepared_complete {h d : Bytes} (hh : hb.or f.hdr = some h) (hd : db.or f.data = some d) :
    f.prepared hb db =
      ⟨some h, some (BitVec.ofNat 8 d.length), some d, some (checksum h (BitVec.ofNat 8 d.length) d), false,
        decide (h.length = 2)⟩ := by
  simp only [Frame.prepared, hh, hd]
  rfl

theorem Frame.prepared_partial (h : hb.or f.hdr = none ∨ db.or f.data = none) :
    f.prepared hb db =
      { f with
        hdr := hb.or f.hdr
        data := db.or f.data
        valid := if ∃ h, hb = some h ∧ h.length ≠ 2 then false else f.valid } := by
  unfold Frame.prepared
  dsimp only
  split
  case h_1 e1 e2 => simp [e1, e2] at h
  case h_2 =>
    cases hb with
    | none => simp
    | some b => by_cases hl : b.length = 2 <;> simp [validAfterHeader_eq, hl]

end Prepare

/-- Settles O18: accepted operands within the caps come to `prepared`, whose two branches are the two results. -/
theorem prepareResult : Obligations.PrepareResult := by
  intro fs ho dop s hu hr
  have hbusy : s.busy = false := State.busy_false.2 ⟨hu, hr⟩
  rw [exec_prepare hbusy]
  refine ⟨fun hb db hh hd => ?accepted, fun hrej => ?rejected⟩
  case rejected => rw [Frame.prepare_rejected hrej, State.finishCodec_typeMismatch]
  case accepted =>
    rw [Frame.prepare_of_accepted hh hd]
    refine ⟨fun hlen dlen => ?within, fun hlong => ?above⟩
    case above => rw [if_pos hlong, State.finishCodec_refused]
    case within =>
      have hcap : ¬((∃ b, hb = some b ∧ 255 < b.length) ∨ ∃ b, db = some b ∧ 255 < b.length) := by
        rintro (⟨b, e, hl⟩ | ⟨b, e, hl⟩)
        · exact absurd (hlen b e) (by omega)
        · exact absurd (dlen b e) (by omega)
      rw [if_neg hcap, State.finishCodec_done]
      refine ⟨fun h d eh ed => ?complete, fun hunset => ?incomplete⟩
      case complete => rw [Frame.prepared_complete eh ed]
      case incomplete => rw [Frame.prepared_partial hunset]

/-! ### The accessors (R131 to R134) -/

theorem fieldResponse_some (fmt : Fmt) (b : Bytes) : fieldResponse fmt (some b) = .ok (.field fmt b) := rfl

theorem fieldResponse_none (fmt : Fmt) : fieldResponse fmt none = .ok .unset := rfl

theorem be16_eq_shift (c : Word16) : be16 c = [(c >>> 8).setWidth 8, c.setWidth 8] := by
  have e1 : c.extractLsb' 8 8 = (c >>> 8).setWidth 8 := by
    apply BitVec.eq_of_toNat_eq
    simp [BitVec.extractLsb'_toNat]
  have e2 : c.extractLsb' 0 8 = c.setWidth 8 := by
    apply BitVec.eq_of_toNat_eq
    simp [BitVec.extractLsb'_toNat]
  rw [be16, e1, e2]

/-- Settles O19: each accessor's response turns on its field alone. -/
theorem accessorResults : Obligations.AccessorResults := by
  intro fs fmt s hu hr
  have hb : s.busy = false := State.busy_false.2 ⟨hu, hr⟩
  rw [exec_getHeader hb, exec_getData hb, exec_getDataSize hb, exec_getChecksum hb]
  refine ⟨⟨rfl, rfl, rfl, rfl⟩, fun b h => ?header, fun h => ?noHeader, fun b h => ?data, fun h => ?noData,
    fun n h => ?size, fun h => ?noSize, fun c h => ?csum, fun h => ?noCsum⟩
  case header | data => rw [h, fieldResponse_some]; rfl
  case size => rw [h, Option.map_some, fieldResponse_some]; rfl
  case csum => rw [h, Option.map_some, fieldResponse_some, be16_eq_shift]; rfl
  case noHeader | noData => rw [h, fieldResponse_none]; rfl
  case noSize | noCsum => rw [h, Option.map_none, fieldResponse_none]; rfl

/-! ### The image (R135, R136) -/

section Image

variable {f : Frame} {h d : Bytes} {n : Byte} {c : Word16}

theorem Frame.image_of_fields (hh : f.hdr = some h) (hn : f.size = some n) (hd : f.data = some d) (hc : f.csum = some c) :
    f.image = some (h ++ [n] ++ d ++ be16 c) := by
  simp [Frame.image, hh, hn, hd, hc]

theorem Frame.image_unset (hu : f.hdr = none ∨ f.size = none ∨ f.data = none ∨ f.csum = none) : f.image = none := by
  unfold Frame.image
  split
  case h_1 hh hn hd hc => simp [hh, hn, hd, hc] at hu
  case h_2 => rfl

theorem Frame.rawReverify_of_fields (hh : f.hdr = some h) (hn : f.size = some n) (hd : f.data = some d)
    (hc : f.csum = some c) : f.rawReverify = decide (c ≠ checksum h n d) := by
  simp [Frame.rawReverify, Frame.verifies, hc, Frame.csOf_of_fields hh hn hd]

end Image

/-- Settles O20: both operations answer `image`; `GETRAW` adds the two warnings. -/
theorem imageResults : Obligations.ImageResults := by
  intro fs s hu hr
  have hb : s.busy = false := State.busy_false.2 ⟨hu, hr⟩
  refine ⟨rfl, fun h n d c hh hn hd hc => ?raw, fun hunset => ?rawUnset, rfl, fun h n d c hh hn hd hc => ?hex,
    fun hunset => ?hexUnset⟩
  case raw =>
    rw [exec_getRaw hb (Frame.image_of_fields hh hn hd hc), Frame.rawEvents, Frame.rawReverify_of_fields hh hn hd hc]
    simp [State.logEvents, State.respond, Frame.rawInvalid]
  case rawUnset =>
    rw [exec_getRaw_unset hb (Frame.image_unset hunset)]
    rfl
  case hex =>
    rw [exec_getHex hb (Frame.image_of_fields hh hn hd hc)]
    rfl
  case hexUnset =>
    rw [exec_getHex_unset hb (Frame.image_unset hunset)]
    rfl

end Sys2Proof.Machine
end

section
/-!
PROOFS. The codec and `READ` together: a frame that is built and read back, and a changed checksum byte (40_codec.md R138, R139).
-/

namespace Sys2Proof.Machine

/-! ### Building a frame and taking its image -/

/-- `PREPARE` of raw bytes on a fresh frame builds the frame of `SEND` (30_encoding.md R106). -/
theorem prepare_fresh {h d : Bytes} (hh : h.length ≤ 255) (hd : d.length ≤ 255) :
    Frame.fresh.prepare (some ⟨.rawBytes, h⟩) (some ⟨.rawBytes, d⟩) = .done (sendFrame h d) [] := by
  have hcap : ¬((∃ b, some h = some b ∧ 255 < b.length) ∨ ∃ b, some d = some b ∧ 255 < b.length) := by
    simp [hh, hd]
  rw [Frame.prepare_of_accepted (hb := some h) (db := some d) rfl rfl, if_neg hcap]
  rfl

theorem exec_prepare_fresh {s : State} {fs : FrameSel} {h d : Bytes} (hb : s.busy = false)
    (hf : s.frame fs = .fresh) (hh : h.length ≤ 255) (hd : d.length ≤ 255) :
    exec (.prepare fs (some ⟨.rawBytes, h⟩) (some ⟨.rawBytes, d⟩)) s = .next (s.setFrame fs (sendFrame h d)).respondOk := by
  rw [exec_prepare hb, hf, prepare_fresh hh hd, State.finishCodec_done]
  cases fs <;> rfl

/-- The image of a prepared frame with a two-byte header raises neither warning of `GETRAW`. -/
theorem exec_getRaw_sendFrame {s : State} {fs : FrameSel} {h d : Bytes} (hb : s.busy = false)
    (hf : s.frame fs = sendFrame h d) (hh : h.length = 2) :
    exec (.getRaw fs) s = .next (s.respond (.ok (.image false false
      (h ++ BitVec.ofNat 8 d.length :: (d ++ be16 (checksum h (BitVec.ofNat 8 d.length) d)))))) := by
  have hvalid : (sendFrame h d).rawInvalid = false := by
    simp [Frame.rawInvalid, sendFrame_eq, validPrepared, Config.hdrLen, hh]
  have hsum : (sendFrame h d).rawReverify = false := by
    rw [Frame.rawReverify, sendFrame_verifies, Bool.not_true]
  rw [exec_getRaw hb (hf ▸ sendFrame_image h d), hf, sendFrame_events, if_pos hh, State.logEvents_nil, hvalid, hsum]

/-! ### Reading it back -/

/-- A host's `READ` with a burst waiting (41_transport.md R162). -/
theorem exec_read_burst {s : State} {b : Burst} {rest : List Burst} (hb : s.busy = false) (hp : s.portOpen = true)
    (hw : s.rxPending = b :: rest) :
    exec .read s = .next ({ s.afterRead b rest with hostRead := false }.respond (readResponse (burstResult b))) := by
  have he : s.rxPending.isEmpty = false := by rw [hw]; rfl
  refine (State.direct_idle hb).trans ?_
  rw [if_pos hp, he, if_neg Bool.false_ne_true, State.finishHostRead, State.readLine_afterRead hw]

theorem sendFrame_image_length {h d img : Bytes} (hi : (sendFrame h d).image = some img) :
    img.length = h.length + d.length + 3 := by
  obtain rfl := Option.some.inj ((sendFrame_image h d).symm.trans hi)
  simp [be16]
  omega

/-- The image of a prepared frame with a two-byte header is assembled to the same fields, with the checksum supplied. -/
theorem assemble_sendFrame_image {h d img : Bytes} (hh : h.length = 2) (hd : d.length ≤ 255)
    (hi : (sendFrame h d).image = some img) :
    assemble img =
      ⟨⟨some h, some (BitVec.ofNat 8 d.length), some d, some (checksum h (BitVec.ofNat 8 d.length) d), true, true⟩,
        .ok, []⟩ := by
  obtain rfl := Option.some.inj ((sendFrame_image h d).symm.trans hi)
  obtain ⟨x, y, rfl⟩ := List.length_eq_two.1 hh
  have hn : d.length = (BitVec.ofNat 8 d.length).toNat := by
    rw [BitVec.toNat_ofNat, Nat.mod_eq_of_lt (by omega)]
  have key := assemble_of_fields x y (BitVec.ofNat 8 d.length)
    ((checksum [x, y] (BitVec.ofNat 8 d.length) d).extractLsb' 8 8)
    ((checksum [x, y] (BitVec.ofNat 8 d.length) d).extractLsb' 0 8) d
  rw [if_neg (not_not_intro hn), join16_be16, assembleChecksum_eq, if_pos rfl] at key
  rw [← key, be16]
  simp only [List.cons_append, List.nil_append]

/-- Settles O21: the image is at most 260 bytes, so `READ` does not cut it, and its fields are those of the frame. -/
theorem codecRoundTrip : Obligations.CodecRoundTrip := by
  intro fs h d s hh hd hu hr
  have hb : s.busy = false := State.busy_false.2 ⟨hu, hr⟩
  have hb1 : (s.setFrame fs .fresh).respondOk.busy = false := by cases fs <;> exact hb
  have hb2 : ((s.setFrame fs .fresh).respondOk.setFrame fs (sendFrame h d)).respondOk.busy = false := by
    cases fs <;> exact hb
  refine ⟨_, _, _, _, exec_fnew hb fs, exec_prepare_fresh hb1 (by cases fs <;> rfl) (by omega) hd,
    exec_getRaw_sendFrame hb2 (by cases fs <;> rfl) hh, rfl, ?_⟩
  intro u b rest hu' hr' hp hw hbytes
  have hi : (sendFrame h d).image = some b.bytes := by rw [hbytes, sendFrame_image]
  have hlen := sendFrame_image_length hi
  have huncut : b.bytes.take 261 = b.bytes := List.take_of_length_le (by omega)
  have hread := assemble_sendFrame_image hh hd hi
  refine ⟨_, exec_read_burst (State.busy_false.2 ⟨hu', hr'⟩) hp hw, ?response, ?frame⟩
  case response =>
    rw [burstResult, huncut, hread]
    rfl
  case frame =>
    show (assemble (b.bytes.take 261)).frame = _
    rw [huncut, hread]

/-! ### A changed checksum byte -/

theorem join16_injective {p q p' q' : Byte} (h : join16 p q = join16 p' q') : p = p' ∧ q = q' := by
  have e : [p, q] = [p', q'] := by rw [← be16_join16, h, be16_join16]
  simpa using e

/-- Where one checksum field reads `ok`, every other after the same bytes is read with code 2. -/
theorem assemble_other_checksum {body : Bytes} {p q p' q' : Byte} (hok : (assemble (body ++ [p, q])).result = .ok)
    (hne : join16 p' q' ≠ join16 p q) :
    (assemble (body ++ [p', q'])).result = .err .checksumFailure ∧ (assemble (body ++ [p', q'])).frame.valid = false := by
  obtain ⟨x, y, z, d, p1, q1, e, hd⟩ := assemble_complete (.inl hok)
  obtain ⟨rfl, e2⟩ := List.append_inj' e rfl
  obtain ⟨rfl, rfl⟩ : p = p1 ∧ q = q1 := by simpa using e2
  have fields (a b : Byte) := assemble_of_fields x y z a b d
  simp only [if_neg (not_not_intro hd), assembleChecksum_eq] at fields
  have hsum : join16 p q = checksum [x, y] z d := by
    by_contra hbad
    rw [fields, if_neg hbad] at hok
    cases hok
  rw [fields, if_neg (hsum ▸ hne)]
  exact ⟨rfl, rfl⟩

/-- Settles O22: two checksum fields that differ in a byte are different numbers. -/
theorem checksumFlipCaught : Obligations.ChecksumFlipCaught := by
  intro body p q p' q' hok hflip
  refine assemble_other_checksum hok fun e => ?_
  obtain ⟨hp, hq⟩ := join16_injective e
  rcases hflip with ⟨hne, -⟩ | ⟨-, hne⟩
  · exact hne hp
  · exact hne hq

end Sys2Proof.Machine
end

section
/-!
PROOFS. The line and the held stop under every step (10_state.md R41, 41_transport.md R160, R166, 42_sequencer.md R230,
60_exceptions.md R280). Both invariants speak of five registers, `Line`. Almost every move that writes one of them leaves the
port open with no read of the host's in flight, which `State.lineWf_of_open` shows to be enough.
-/

namespace Sys2Proof.Machine

/-- The registers that the line's and the stop's invariant speak of. -/
structure Line where
  upc : Upc
  portOpen : Bool
  hostRead : Bool
  rxPending : List Burst
  stopPending : Bool

def State.line (s : State) : Line := ⟨s.upc, s.portOpen, s.hostRead, s.rxPending, s.stopPending⟩

/-- `State.lineWf` in words: what a closed port excludes, and what a host's own read in flight does. -/
theorem State.lineWf_iff {s : State} : s.lineWf = true ↔
    (s.portOpen = false → s.rxPending = [] ∧ s.hostRead = false ∧ usesLine s.upc = false) ∧
      (s.hostRead = true → isRunning s.upc = false) := by
  cases hp : s.portOpen <;> cases hh : s.hostRead <;> simp [State.lineWf, hp, hh]

theorem State.stopWf_iff {s : State} : s.stopWf = true ↔ (s.stopPending = true → s.readInFlight = true) := by
  cases hs : s.stopPending <;> simp [State.stopWf, hs]

/-- What a move keeps of the two invariants. -/
structure LineKept (s t : State) : Prop where
  line : s.lineWf = true → t.lineWf = true
  stop : s.stopWf = true → t.stopWf = true

/-! ### States on the line -/

theorem State.lineWf_of_open {s : State} (hp : s.portOpen = true) (hh : s.hostRead = false) : s.lineWf = true := by
  simp [State.lineWf, hp, hh]

/-- Where the line is in use, by the sequencer or by a host's read, the port is open. -/
theorem State.portOpen_of_lineWf {s : State} (h : s.lineWf = true) (hu : usesLine s.upc = true ∨ s.hostRead = true) :
    s.portOpen = true := by
  by_contra hp
  obtain ⟨hclosed, -⟩ := State.lineWf_iff.1 h
  obtain ⟨-, hh, hn⟩ := hclosed (by simpa using hp)
  simp [hh, hn] at hu

theorem usesLine_of_idle {u : Upc} (h : isRunning u = false) : usesLine u = false := by
  revert h
  cases u <;> decide

/-- With the host free to issue a direct operation, no read is in flight. -/
theorem State.readInFlight_of_idle {s : State} (hb : s.busy = false) : s.readInFlight = false := by
  obtain ⟨hu, hh⟩ := State.busy_false.1 hb
  revert hu
  cases h : s.upc <;> simp [State.readInFlight, isReading, isRunning, h, hh]

theorem State.hostRead_of_readInFlight {s : State} (h : s.readInFlight = false) : s.hostRead = false := by
  simp only [State.readInFlight, Bool.or_eq_false_iff] at h
  obtain ⟨⟨hh, -⟩, -⟩ := h
  exact hh

/-- A stop that is taken outside a read leaves a closed, empty port in IDLE. -/
theorem State.takeStop_lineWf {s : State} (h : s.readInFlight = false) : s.takeStop.lineWf = true := by
  have hh := State.hostRead_of_readInFlight h
  rw [State.takeStop_eq]
  exact State.lineWf_iff.2 ⟨fun _ => ⟨rfl, hh, rfl⟩, fun _ => rfl⟩

theorem State.takeStop_stopWf (s : State) : s.takeStop.stopWf = true := by
  rw [State.takeStop_eq]
  rfl

/-! ### Kinds of move -/

/-- A move that writes none of the five registers. -/
theorem LineKept.of_eq {s t : State} (h : t.line = s.line) : LineKept s t := by
  simp only [State.line, Line.mk.injEq] at h
  obtain ⟨hu, hp, hh, hr, hs⟩ := h
  constructor
  · rw [State.lineWf, State.lineWf, hu, hp, hh, hr]
    exact id
  · rw [State.stopWf, State.stopWf, State.readInFlight, State.readInFlight, hu, hh, hr, hs]
    exact id

/-- A direct operation: no stop is held before it, as no read is in flight. -/
theorem LineKept.of_direct {s t : State} (hb : s.busy = false) (hs : t.stopPending = s.stopPending)
    (hl : s.lineWf = true → t.lineWf = true) : LineKept s t := by
  refine ⟨hl, fun hw => State.stopWf_iff.2 fun ht => ?_⟩
  have hread := State.stopWf_iff.1 hw (hs ▸ ht)
  rw [State.readInFlight_of_idle hb] at hread
  cases hread

/-- A burst that arrives finds the port open, or is discarded; and it ends no read. -/
theorem LineKept.arrive (s : State) (b : Burst) : LineKept s (s.arrive b) := by
  unfold State.arrive
  split
  · next hp =>
    refine ⟨fun hl => ?_, fun hw => State.stopWf_iff.2 fun ht => ?_⟩
    · obtain ⟨-, hhost⟩ := State.lineWf_iff.1 hl
      exact State.lineWf_iff.2 ⟨fun hc => absurd (hp.symm.trans hc) nofun, hhost⟩
    · have hread := State.stopWf_iff.1 hw ht
      simp only [State.readInFlight, Bool.or_eq_true, Bool.and_eq_true] at hread ⊢
      exact hread.imp_right fun hc => ⟨hc.1, by simp⟩
  · exact .of_eq rfl

/-! ### Every move -/

/-- The block's own micro-step stays where it is, ends the host's `READ`, or leaves the port open with no read of the host's. -/
theorem OwnMove.line {s t : State} (h : OwnMove s t) (hl : s.lineWf = true) : t.lineWf = true := by
  have opened {u : Upc} (hu : s.upc = u) (hline : usesLine u = true) : s.portOpen = true :=
    State.portOpen_of_lineWf hl (.inl (hu ▸ hline))
  cases h with
  | rest => exact hl
  | hostRead hh =>
    have hp := State.portOpen_of_lineWf hl (.inr hh)
    obtain ⟨f, m, n, es, r, _, e⟩ := s.finishHostRead_effect
    rw [e]
    exact State.lineWf_of_open hp rfl
  | authSend d hd hh hu hp | p1Send hh hu hp | p2Send hh hu hp | p3Send hh hu hp | p4Send hh hu hp =>
    exact State.lineWf_of_open hp hh
  | xSend bs toggle hlen hh hu hp => exact State.lineWf_of_open hp hh
  | authRead hh hu hp =>
    obtain ⟨f, m, n, es, _, e | e⟩ := authReadStep_effect s <;> rw [e] <;> exact State.lineWf_of_open hp hh
  | p1Read hh hu hp =>
    obtain ⟨f, m, n, es, _, e | ⟨p, e⟩ | ⟨p, e⟩⟩ := p1ReadStep_effect s <;> rw [e] <;>
      exact State.lineWf_of_open hp hh
  | p2CheckRead hh hu hne hp =>
    obtain ⟨f, m, n, es, _, e⟩ := p2CheckRead_effect s
    rw [e]
    exact State.lineWf_of_open hp hh
  | p3Read hh hu hp =>
    obtain ⟨f, m, n, es, _, e⟩ := p3ReadStep_effect s
    rw [e]
    exact State.lineWf_of_open hp hh
  | p4Read hh hu hp =>
    obtain ⟨f, m, n, es, _, ⟨_, e⟩ | e⟩ := p4ReadStep_effect s <;> rw [e] <;> exact State.lineWf_of_open hp hh
  | xRead p hproc hh hu hp =>
    obtain ⟨f, m, n, es, _, ⟨_, _, _, _, _, _, e⟩ | ⟨_, _, e⟩⟩ := xReadStep_effect hproc s <;> rw [e] <;>
      exact State.lineWf_of_open hp hh
  | authSleep hh hu =>
    obtain ⟨_, e⟩ | ⟨_, e⟩ := authSleepDone_effect s <;> rw [e] <;> exact State.lineWf_of_open rfl hh
  | p2CheckNone hh hu | p2Wait hh hu | p4Wait hh hu | xSleep hh hu =>
    exact State.lineWf_of_open (opened hu rfl) hh

theorem HostMove.lineKept {s t : State} (h : HostMove s t) : LineKept s t := by
  cases h with
  | responds | image | write => exact .of_eq rfl
  | fresh | codec => exact .of_eq (by simp [State.line])
  | openPort hb =>
    obtain ⟨-, hh⟩ := State.busy_false.1 hb
    exact .of_direct hb (by simp) fun _ => State.lineWf_of_open (by simp) (by simpa using hh)
  | runAuth u m w hb =>
    obtain ⟨-, hh⟩ := State.busy_false.1 hb
    exact .of_direct hb (by simp) fun _ => State.lineWf_of_open (by simp) (by simpa using hh)
  | closePort hb =>
    obtain ⟨hu, hh⟩ := State.busy_false.1 hb
    exact .of_direct hb rfl fun _ => State.lineWf_iff.2 ⟨fun _ => ⟨rfl, hh, usesLine_of_idle hu⟩, fun _ => hu⟩
  | readWaits hb hp =>
    obtain ⟨hu, -⟩ := State.busy_false.1 hb
    exact .of_direct hb rfl fun _ => State.lineWf_iff.2 ⟨fun hc => absurd (hp.symm.trans hc) nofun, fun _ => hu⟩
  | readEnds hb hp =>
    obtain ⟨f, m, n, es, r, _, e⟩ := s.finishHostRead_effect
    rw [e]
    exact .of_direct hb rfl fun _ => State.lineWf_of_open hp rfl
  | runInit hb | readData ufc sinks poll hb =>
    obtain ⟨-, hh⟩ := State.busy_false.1 hb
    refine .of_direct hb rfl fun hl => State.lineWf_iff.2 ⟨fun hc => ?_, fun hr => absurd (hh.symm.trans hr) nofun⟩
    obtain ⟨hpend, hhost, -⟩ := (State.lineWf_iff.1 hl).1 hc
    exact ⟨hpend, hhost, rfl⟩
  | stopHeld hr => exact ⟨id, fun _ => State.stopWf_iff.2 fun _ => hr⟩
  | stop hr => exact ⟨fun _ => State.takeStop_lineWf hr, fun _ => s.takeStop_stopWf⟩

/-- Settles O52: every move keeps the line's invariant; after the block's own micro-step a stop is held only in a read, else it
is taken. -/
theorem lineStaysLegal : Obligations.LineStaysLegal := by
  intro s t hstep
  cases step_move hstep with
  | reset => exact ⟨fun _ => rfl, fun _ => rfl⟩
  | host c rest t hi hr hm => exact ⟨hm.lineKept.line, hm.lineKept.stop⟩
  | arrive b rest =>
    have hk := LineKept.arrive { s with inputs := rest } b
    exact ⟨hk.line, hk.stop⟩
  | own rest u hi hm hheld =>
    exact ⟨hm.line, fun _ => State.stopWf_iff.2 fun hs => by simpa [hs] using hheld⟩
  | ownStopped rest u hi hm hs hn => exact ⟨fun _ => State.takeStop_lineWf hn, fun _ => u.takeStop_stopWf⟩

end Sys2Proof.Machine
end

section
/-!
PROOFS. The transport's operations and `READ` (41_transport.md R160 to R169). Each meaning is reduced once to its effect on the
line; what a burst is read as is a fact about `assemble` alone.
-/

namespace Sys2Proof.Machine

/-! ### A burst arrives (R160, 60_exceptions.md R285) -/

theorem State.arrive_open {s : State} (hp : s.portOpen = true) (b : Burst) :
    s.arrive b = { s with rxPending := s.rxPending ++ [b] } := if_pos hp

theorem State.arrive_closed {s : State} (hp : s.portOpen = false) (b : Burst) : s.arrive b = s :=
  if_neg (by simp [hp])

theorem step_burst {s : State} {b : Burst} {rest : List Input} (hr : s.readReady = false)
    (hi : s.inputs = .burst b :: rest) : step s = .next ({ s with inputs := rest }.arrive b) := by
  simp [step, hi, hr]

/-- Settles O8: the step hands the burst to `arrive`, which turns on the port. -/
theorem burstArrives : Obligations.BurstArrives := by
  intro s b rest hr hi
  rw [step_burst hr hi]
  exact ⟨fun hp => congrArg _ (State.arrive_open (s := { s with inputs := rest }) hp b),
    fun hp => congrArg _ (State.arrive_closed (s := { s with inputs := rest }) hp b)⟩

/-! ### The port (R160, R165, R166) -/

theorem State.openLine_of_closed {s : State} (hp : s.portOpen = false) :
    s.openLine = { s with portOpen := true, rxPending := [] } := if_neg (by simp [hp])

theorem State.openLine_of_open {s : State} (hp : s.portOpen = true) : s.openLine = s := if_pos hp

section Idle

variable {s : State}

theorem exec_openPort (hb : s.busy = false) : exec .openPort s = .next s.openLine.respondOk := State.direct_idle hb

theorem exec_closePort (hb : s.busy = false) : exec .closePort s = .next s.closeLine.respondOk := State.direct_idle hb

theorem exec_pollRx (hb : s.busy = false) (hp : s.portOpen = true) :
    exec .pollRx s = .next (s.respond (.ok (.waiting (!s.rxPending.isEmpty)))) := by
  refine (State.direct_idle hb).trans ?_
  rw [if_pos hp]

theorem exec_pollRx_closed (hb : s.busy = false) (hp : s.portOpen = false) :
    exec .pollRx s = .next (s.respond .refused) := by
  refine (State.direct_idle hb).trans ?_
  rw [hp, if_neg Bool.false_ne_true]

theorem exec_write (hb : s.busy = false) (hp : s.portOpen = true) {fs : FrameSel} {img : Bytes}
    (hi : (s.frame fs).image = some img) :
    exec (.write fs) s = .next (s.writeImage (s.frame fs) img).respondOk := by
  refine (State.direct_idle hb).trans ?_
  rw [hp, hi]

theorem exec_write_refused (hb : s.busy = false) {fs : FrameSel}
    (h : s.portOpen = false ∨ (s.frame fs).image = none) : exec (.write fs) s = .next (s.respond .refused) := by
  refine (State.direct_idle hb).trans ?_
  rcases h with h | h
  · rw [h]
  · rw [h]
    cases s.portOpen <;> rfl

theorem exec_read_closed (hb : s.busy = false) (hp : s.portOpen = false) :
    exec .read s = .next (s.respond .refused) := by
  refine (State.direct_idle hb).trans ?_
  rw [hp, if_neg Bool.false_ne_true]

theorem exec_read_waits (hb : s.busy = false) (hp : s.portOpen = true) (hw : s.rxPending = []) :
    exec .read s = .next { s.afterSilence with hostRead := true } := by
  refine (State.direct_idle hb).trans ?_
  rw [if_pos hp, hw, if_pos List.isEmpty_nil]
  rfl

end Idle

/-- Settles O24: the three operations are their effects on the line, which turn on the port and on what waits. -/
theorem portOperations : Obligations.PortOperations := by
  intro s hu hr
  have hb : s.busy = false := State.busy_false.2 ⟨hu, hr⟩
  rw [exec_openPort hb]
  refine ⟨rfl, rfl, fun hp => ?opens, fun hp => ?isOpen, exec_closePort hb, rfl, fun hp hw => ?nothing, fun hp hw => ?waits,
    fun hp => exec_pollRx_closed hb hp⟩
  case opens => rw [State.openLine_of_closed hp]; rfl
  case isOpen => rw [State.openLine_of_open hp]; rfl
  case nothing => rw [exec_pollRx hb hp, List.isEmpty_iff.2 hw]; rfl
  case waits => rw [exec_pollRx hb hp, List.isEmpty_eq_false_iff.2 hw]; rfl

/-! ### `WRITE` (R161) -/

theorem Frame.rawEvents_of_fields {f : Frame} {h d : Bytes} {n : Byte} {c : Word16} (hh : f.hdr = some h)
    (hn : f.size = some n) (hd : f.data = some d) (hc : f.csum = some c) :
    f.rawEvents = (if f.valid = false then [.wRawInvalid] else []) ++
      (if c ≠ checksum h n d then [.wRawReverify] else []) := by
  simp [Frame.rawEvents, Frame.rawInvalid, Frame.rawReverify_of_fields hh hn hd hc]

/-- Settles O25: the image is that of the stored fields, and `WRITE` logs what `GETRAW` does. -/
theorem writeResult : Obligations.WriteResult := by
  intro fs s hu hr
  have hb : s.busy = false := State.busy_false.2 ⟨hu, hr⟩
  refine ⟨rfl, fun h n d c hh hn hd hc hp => ?written, fun hrej => ?refused⟩
  case written =>
    rw [exec_write hb hp (Frame.image_of_fields hh hn hd hc), List.append_assoc s.log,
      ← Frame.rawEvents_of_fields hh hn hd hc]
    rfl
  case refused => exact exec_write_refused hb (hrej.imp_right Frame.image_unset)

/-! ### `READ` of a burst (R163, R169) -/

theorem unbe_pair (p q : Byte) : unbe [p, q] = 256 * p.toNat + q.toNat := by
  simp [unbe, Nat.mul_comm]

/-- From the buffer's capacity on, more data bytes than any size byte counts: code 12, and only the first three bytes tell. -/
theorem assemble_long {b : Bytes} (h : 261 ≤ b.length) :
    assemble b = ⟨⟨some (b.take 2), some (b.getD 2 0), none, none, false, false⟩, .err .dataBoundary, []⟩ := by
  have hclash : ((Frame.fresh.withHeader (b.take 2)).withSize (b.getD 2 0#8)).dataClash ((b.take (b.length - 2)).drop 3) =
      true := by
    have hsize := (b.getD 2 0#8).isLt
    have hdata : ((b.take (b.length - 2)).drop 3).length = b.length - 5 := by simp; omega
    simp only [Frame.dataClash, Frame.withSize, hdata, decide_eq_true_eq]
    omega
  simp only [assemble]
  rw [if_neg (by omega), if_neg (by omega), if_neg (by omega), if_pos hclash]
  rfl

theorem assemble_take_long {b : Bytes} (h : 261 ≤ b.length) : assemble (b.take 261) = assemble b := by
  rw [assemble_long h, assemble_long (by simpa using h), List.take_take]
  simp

/-- Bytes stored from address 0 into an empty buffer stand at their own index. -/
theorem Memory.read_store_empty (bs : Bytes) (a : Nat) : (Memory.store [] 0 bs).read a = bs[a]? := by
  rw [Memory.read_store]
  split
  case isTrue => rw [Nat.sub_zero]
  case isFalse hout => exact (List.getElem?_eq_none (by omega)).symm

/-- What a read leaves of the burst buffer, by address (10_state.md R43, 20_memory.md R62). -/
theorem State.afterRead_rxbuf_read (s : State) (x : Burst) (rest : List Burst) (a : Nat) :
    (s.afterRead x rest).rxbuf.read a = if a < 261 then x.bytes[a]? else none :=
  (Memory.read_store_empty _ a).trans List.getElem?_take

/-- Settles O23: short bursts are evaluated; from five bytes on the burst is told by its fields (`assemble_of_fields`). -/
theorem readOfBurst : Obligations.ReadOfBurst := by
  refine ⟨fun x => rfl, fun x y => rfl, fun x y z => rfl, fun x y z w hz => ?noData, fun x y w => rfl,
    fun x y z p q d hd => ?clash, fun x y z p q d hd hc => ?badSum, fun x y z p q d hd hc => ?goodSum,
    fun b hb => ⟨?cutCode, (assemble_take_long hb).symm⟩, fun s x rest => ⟨?fill, s.afterRead_rxbuf_read x rest⟩⟩
  case noData => simp [assemble, show z ≠ 0#8 from hz, Frame.withHeader, Frame.withSize, Frame.fresh, validAfterHeader]
  case clash => rw [assemble_of_fields, if_pos hd]
  case badSum =>
    rw [assemble_of_fields, if_neg (not_not_intro hd), assembleChecksum_eq, if_neg, unbe_pair, join16_eq_ofNat]
    rwa [join16_eq_iff, ← unbe_pair]
  case goodSum =>
    rw [unbe_pair, ← join16_eq_iff] at hc
    rw [assemble_of_fields, if_neg (not_not_intro hd), assembleChecksum_eq, if_pos hc, hc]
  case cutCode => rw [assemble_take_long hb, assemble_long hb]
  case fill => exact (List.length_take ..).trans (Nat.min_comm ..)

/-! ### A host's `READ` (R162 to R164) -/

theorem State.hostRead_self {s : State} (h : s.hostRead = false) : { s with hostRead := false } = s := by
  rw [← h]

/-- `exec_read_burst` with the flag of a read in flight left alone: it was clear. -/
theorem exec_read_first {s : State} {b : Burst} {rest : List Burst} (hb : s.busy = false) (hp : s.portOpen = true)
    (hw : s.rxPending = b :: rest) :
    exec .read s = .next
      { s.afterRead b rest with responses := s.responses ++ [readResponse (burstResult b)] } := by
  obtain ⟨-, hr⟩ := State.busy_false.1 hb
  rw [exec_read_burst hb hp hw, State.hostRead_self (s := s.afterRead b rest) hr]
  rfl

theorem State.finishHostRead_burst {s : State} {b : Burst} {rest : List Burst} (hw : s.rxPending = b :: rest) :
    s.finishHostRead =
      { s.afterRead b rest with hostRead := false, responses := s.responses ++ [readResponse (burstResult b)] } := by
  rw [State.finishHostRead, State.readLine_afterRead hw]
  rfl

theorem State.finishHostRead_silence {s : State} (hw : s.rxPending = []) :
    s.finishHostRead =
      { s.afterSilence with hostRead := false, responses := s.responses ++ [.commError .globalTimeout] } := by
  rw [State.finishHostRead, State.readLine_afterSilence hw]
  rfl

theorem State.readReady_of_silence {s : State} (hw : s.rxPending = []) : s.readReady = false := by
  simp [State.readReady, hw]

theorem State.readReady_of_hostRead {s : State} {b : Burst} {rest : List Burst} (hr : s.hostRead = true)
    (hw : s.rxPending = b :: rest) : s.readReady = true := by
  simp [State.readReady, State.readInFlight, hr, hw]

/-- The block's own micro-step while a host's `READ` is in flight and the line stays silent. -/
theorem ownStep_hostRead_silence {s : State} (hr : s.hostRead = true) (hw : s.rxPending = []) :
    ownStep s = .next
      { s.afterSilence with hostRead := false, responses := s.responses ++ [.commError .globalTimeout] } := by
  rw [ownStep_hostRead hr, State.finishHostRead_silence hw]

/-- The same when a burst is there. -/
theorem ownStep_hostRead_burst {s : State} {b : Burst} {rest : List Burst} (hr : s.hostRead = true)
    (hw : s.rxPending = b :: rest) :
    ownStep s = .next
      { s.afterRead b rest with hostRead := false, responses := s.responses ++ [readResponse (burstResult b)] } := by
  rw [ownStep_hostRead hr, State.finishHostRead_burst hw]

/-- Settles O26: a `READ` ends in the step that issues it, with the first burst that waits, or in the step of the block's own
that ends the read in flight, with the burst that came or in silence. -/
theorem readResult : Obligations.ReadResult := by
  intro s hu
  have idle (hr : s.hostRead = false) : s.busy = false := State.busy_false.2 ⟨hu, hr⟩
  refine ⟨rfl, fun hr hp => exec_read_closed (idle hr) hp, fun b rest hr hp hw hok => ?ok,
    fun b rest c hr hp hw herr => ?err, fun hr hp hw => exec_read_waits (idle hr) hp hw, fun hr hw hs hi => ?nothing,
    fun rest hr hw hs hi => ?elapse, fun b rest hr hw hs hi => ?arrived⟩
  case ok => rw [exec_read_first (idle hr) hp hw, hok]; rfl
  case err => rw [exec_read_first (idle hr) hp hw, herr]; rfl
  case nothing => exact step_of_nothing hi (ownStep_hostRead_silence hr hw) hs
  case elapse =>
    exact step_of_elapse hi (State.readReady_of_silence hw)
      (ownStep_hostRead_silence (s := { s with inputs := rest }) hr hw) hs
  case arrived =>
    refine ⟨_, step_of_ready (State.readReady_of_hostRead hr hw) hi (ownStep_hostRead_burst hr hw) hs, fun hok => ?_,
      fun c herr => ?_⟩
    · rw [hok]; rfl
    · rw [herr]; rfl

end Sys2Proof.Machine
end

section
/-!
PROOFS. Where a step can stop, and which row it runs (42_sequencer.md R230, R233, 41_transport.md R161, R162). Every wire row's
meaning is one gate on the position and one on the port, `exec_wireRow`; a host operation never stops.
-/

namespace Sys2Proof.Machine

/-! ### A wire row -/

/-- A wire row runs at its position with the port open, and nowhere else. -/
theorem exec_wireRow {i : Instr} (hk : i.kind ≠ .hostOperation) (s : State) :
    ∃ k, exec i s = atPosition i s (s.onOpenPort k) := by
  cases i
  case raPlumber | raNormal | raNormalAlt | raService | maProbe | m2Probe | rbAck | m1Req | m2Req | m3Req | echoProbe |
      rspMDigit | rspM1 | rspM2 | rspM3 | rspOther | rspAuth => exact ⟨_, rfl⟩
  all_goals exact absurd rfl hk

theorem atPosition_off {i : Instr} {s : State} {k : Result} (h : fetchWire s ≠ some i) :
    atPosition i s k = .fault .noTransition := if_neg h

theorem State.onOpenPort_closed {s k : State} (h : s.portOpen = false) : s.onOpenPort k = .refused .portClosed :=
  if_neg (by simp [h])

/-- Settles O38: the two gates of `exec_wireRow`. -/
theorem wireRowStops : Obligations.WireRowStops := by
  intro i s hk
  obtain ⟨k, e⟩ := exec_wireRow hk s
  rw [e]
  refine ⟨atPosition_off, fun hf hp => ?closed⟩
  case closed => rw [atPosition_of hf, State.onOpenPort_closed hp]

/-! ### A step of the sequencer's own is `exec` of its row -/

/-- Settles O7: each of the three ways to a step of the block's own, in which `ownStep` runs the selected row. -/
theorem stepRunsWireRow : Obligations.StepRunsWireRow := by
  refine fun s i rest hh => ⟨fun hf hi => ?nothing, fun hf hr hi => ?ready, fun hf hr hi => ?elapse, fun t => ?held⟩
  case nothing => simp only [step, hi, ownStep_row hh hf]
  case ready =>
    rw [← ownStep_row hh hf]
    cases e : s.inputs with
    | nil => simp only [step, e]
    | cons x later => cases x <;> simp [step, e, hr] at hi ⊢
  case elapse =>
    have hown : ownStep { s with inputs := rest } = exec i { s with inputs := rest } := ownStep_row hh hf
    simp only [step, hi, hr, hown, Bool.false_eq_true, if_false]
  case held => simp [settle]

/-! ### Where the block's own micro-step stops -/

/-- An answer of the sequencer's own: a next state, or, where a running sequencer is at a closed port, the refusal. -/
def StopsOnlyClosed (s : State) (o : Result) : Prop :=
  (∃ t, o = .next t) ∨ (o = .refused .portClosed ∧ s.portOpen = false ∧ isRunning s.upc = true)

theorem StopsOnlyClosed.next (s t : State) : StopsOnlyClosed s (.next t) := .inl ⟨t, rfl⟩

theorem StopsOnlyClosed.onOpenPort {s : State} (hu : isRunning s.upc = true) (k : State) :
    StopsOnlyClosed s (s.onOpenPort k) := by
  cases hp : s.portOpen
  · exact .inr ⟨State.onOpenPort_closed hp, hp, hu⟩
  · exact .inl ⟨k, State.onOpenPort_open hp⟩

theorem StopsOnlyClosed.settle {s : State} {o : Result} (h : StopsOnlyClosed s o) : StopsOnlyClosed s (settle o) := by
  rcases h with ⟨t, rfl⟩ | ⟨rfl, hclosed⟩
  · unfold Machine.settle
    dsimp only
    split <;> exact .next _ _
  · exact .inr ⟨rfl, hclosed⟩

theorem fetchRequest_isSome {s : State} {i : Instr} (h : fetchRequest s = some i) :
    i.kind ≠ .hostOperation ∧ isRunning s.upc = true := by
  unfold fetchRequest at h
  split at h <;> cases h
  case h_1 hu => rw [hu]; cases s.user <;> exact ⟨nofun, rfl⟩
  case h_2 hu => rw [hu, probe]; split <;> exact ⟨nofun, rfl⟩
  case h_6 hu =>
    rw [hu, exchangeRequest]
    repeat' split
    all_goals exact ⟨nofun, rfl⟩
  case h_3 hu | h_4 hu | h_5 hu => rw [hu]; exact ⟨nofun, rfl⟩

theorem fetchReply_isSome {s : State} {i : Instr} (h : fetchReply s = some i) :
    i.kind ≠ .hostOperation ∧ isRunning s.upc = true := by
  rcases fetchReply_cases h with ⟨hu, ⟨p, q, rfl⟩ | ⟨p, q, rfl⟩⟩ | ⟨hu, ⟨d, rfl⟩ | ⟨p, q, rfl⟩⟩ |
      ⟨hu | hu | hu, p, q, rfl⟩ | ⟨hu, rfl | rfl | rfl | ⟨p, q, rfl⟩⟩ <;>
    exact ⟨nofun, hu ▸ rfl⟩

/-- The row that is selected is a wire row, and the sequencer runs. -/
theorem fetchWire_isSome {s : State} {i : Instr} (h : fetchWire s = some i) :
    i.kind ≠ .hostOperation ∧ isRunning s.upc = true := by
  cases hq : fetchRequest s with
  | some j =>
    obtain rfl : j = i := by simpa [fetchWire_send hq] using h
    exact fetchRequest_isSome hq
  | none => exact fetchReply_isSome (fetchWire_reply hq ▸ h)

/-- The micro-steps that no row names fault at the sending micro-states only, which all select a row. -/
theorem microStep_stops {s : State} (h : fetchRequest s = none) : StopsOnlyClosed s (microStep s) := by
  cases hu : s.upc <;> simp only [fetchRequest, hu, reduceCtorEq] at h <;> simp only [microStep, hu]
  case idle | halt | authSleep | p2Wait | p4Wait | xSleep => exact .next _ _
  case authRead | p1Read | p3Read | p4Read | xRead => exact .onOpenPort (by rw [hu]; rfl) _
  case p2Check =>
    split
    · exact .next _ _
    · exact .onOpenPort (by rw [hu]; rfl) _

theorem ownStep_stops (s : State) : StopsOnlyClosed s (ownStep s) := by
  cases hh : s.hostRead
  case true => rw [ownStep_hostRead hh]; exact .next _ _
  case false =>
    cases hf : fetchWire s with
    | some i =>
      obtain ⟨hk, hu⟩ := fetchWire_isSome hf
      obtain ⟨k, e⟩ := exec_wireRow hk s
      rw [ownStep_row hh hf, e, atPosition_of hf]
      exact .onOpenPort hu k
    | none =>
      rw [ownStep_micro hh hf]
      refine microStep_stops ?_
      cases hq : fetchRequest s with
      | none => rfl
      | some i => rw [fetchWire_send hq] at hf; cases hf

/-! ### A host command never stops -/

theorem State.direct_next (s u : State) : ∃ t, s.direct (.next u) = .next t := by
  unfold State.direct
  split <;> exact ⟨_, rfl⟩

theorem exec_host_next {i : Instr} (hk : i.kind = .hostOperation) (s : State) : ∃ t, exec i s = .next t := by
  cases i <;> simp only [Instr.kind, homeChannel, reduceCtorEq] at hk
  case stop | rdReg => exact ⟨_, rfl⟩
  all_goals exact s.direct_next _

theorem hostStep_next (c : Bytes) (s : State) : ∃ t, hostStep c s = .next t := by
  unfold hostStep
  split
  · next i hd => exact exec_host_next (decodeHost_kind hd) s
  · exact ⟨_, rfl⟩

/-! ### A step -/

theorem step_stops (s : State) : StopsOnlyClosed s (step s) := by
  rcases step_cases s with ⟨rest, _, e⟩ | ⟨c, rest, _, _, e⟩ | ⟨b, rest, _, _, e⟩ | ⟨rest, _, _, e⟩ | ⟨_, e⟩ <;> rw [e]
  · exact .next _ _
  · exact .inl (hostStep_next c _)
  · exact .next _ _
  · exact (ownStep_stops { s with inputs := rest }).settle
  · exact (ownStep_stops s).settle

/-- The running micro-states that a session can reach without having used the line. -/
theorem send_of_unused {u : Upc} (hr : isRunning u = true) (hn : usesLine u = false) : u = .p1Send ∨ u = .xSend := by
  revert hr hn
  cases u <;> decide

/-- Settles O57: a step that stops is a running sequencer's at a closed port, which the line's invariant allows at two
micro-states only. -/
theorem stepStops : Obligations.StepStops := by
  intro s
  rcases step_stops s with ⟨t, e⟩ | ⟨e, hp, hu⟩ <;> rw [e]
  · exact ⟨nofun, nofun⟩
  · refine ⟨nofun, fun r hl hr => ?_⟩
    obtain rfl : Refusal.portClosed = r := by injection hr
    obtain ⟨-, -, hn⟩ := (State.lineWf_iff.1 hl).1 hp
    exact ⟨rfl, hp, send_of_unused hu hn⟩

/-! ### A held stop (R230) -/

/-- Outside the reading micro-states and P2_CHECK only a host's `READ` is a read in flight. -/
theorem State.readInFlight_off {s : State} (hh : s.hostRead = false) (hu : isReading s.upc = false)
    (hc : s.upc ≠ .p2Check) : s.readInFlight = false := by
  simp [State.readInFlight, hh, hu, hc]

theorem not_reading_of_idle {u : Upc} (h : isRunning u = false) : isReading u = false ∧ u ≠ .p2Check := by
  revert h
  cases u <;> decide

/-- The block's own micro-step with a read in flight ends that read, and leaves a held stop held. -/
theorem OwnMove.ends_read {s t : State} (h : OwnMove s t) (hl : s.lineWf = true) (hr : s.readInFlight = true) :
    t.stopPending = s.stopPending ∧ t.readInFlight = false := by
  have elsewhere (hh : s.hostRead = false) {v : Upc} (hu : s.upc = v) (hv : isReading v = false ∧ v ≠ .p2Check) :
      t.stopPending = s.stopPending ∧ t.readInFlight = false := by
    rw [State.readInFlight_off hh (hu ▸ hv.1) (hu ▸ hv.2)] at hr
    cases hr
  cases h with
  | hostRead hh =>
    obtain ⟨hu, hc⟩ := not_reading_of_idle ((State.lineWf_iff.1 hl).2 hh)
    obtain ⟨f, m, n, es, r, _, e⟩ := s.finishHostRead_effect
    rw [e]
    exact ⟨rfl, State.readInFlight_off rfl hu hc⟩
  | rest hh hu => rcases hu with hu | hu <;> exact elsewhere hh hu (by decide)
  | authSend d hd hh hu | p1Send hh hu | p2Send hh hu | p3Send hh hu | p4Send hh hu => exact elsewhere hh hu (by decide)
  | authSleep hh hu | p2Wait hh hu | p4Wait hh hu | xSleep hh hu => exact elsewhere hh hu (by decide)
  | xSend bs toggle hlen hh hu => exact elsewhere hh hu (by decide)
  | p2CheckNone hh hu => exact ⟨rfl, State.readInFlight_off hh rfl nofun⟩
  | authRead hh =>
    obtain ⟨f, m, n, es, _, e | e⟩ := authReadStep_effect s <;> rw [e] <;> exact ⟨rfl, State.readInFlight_off hh rfl nofun⟩
  | p1Read hh =>
    obtain ⟨f, m, n, es, _, e | ⟨p, e⟩ | ⟨p, e⟩⟩ := p1ReadStep_effect s <;> rw [e] <;>
      exact ⟨rfl, State.readInFlight_off hh rfl nofun⟩
  | p2CheckRead hh =>
    obtain ⟨f, m, n, es, _, e⟩ := p2CheckRead_effect s
    rw [e]
    exact ⟨rfl, State.readInFlight_off hh rfl nofun⟩
  | p3Read hh =>
    obtain ⟨f, m, n, es, _, e⟩ := p3ReadStep_effect s
    rw [e]
    exact ⟨rfl, State.readInFlight_off hh rfl nofun⟩
  | p4Read hh =>
    obtain ⟨f, m, n, es, _, ⟨_, e⟩ | e⟩ := p4ReadStep_effect s <;> rw [e] <;> exact ⟨rfl, State.readInFlight_off hh rfl nofun⟩
  | xRead p hp hh =>
    obtain ⟨f, m, n, es, _, ⟨_, _, _, _, _, _, e⟩ | ⟨_, _, e⟩⟩ := xReadStep_effect hp s <;> rw [e] <;>
      exact ⟨rfl, State.readInFlight_off hh rfl nofun⟩

/-- Settles O30: the step that ends the read is the block's own or a reset; after its own micro-step no read is in flight, so
the held stop is taken. -/
theorem heldStopTaken : Obligations.HeldStopTaken := by
  intro s t hl hs hr hends hstep
  have notTaken {x : Input} {rest : List Input} (hi : s.inputs = x :: rest) (hn : s.readReady = false)
      (hx : x ≠ .elapse) : False := by
    rcases hends with hready | hnil | ⟨later, he⟩
    · rw [hn] at hready; cases hready
    · rw [hi] at hnil; cases hnil
    · exact hx (List.cons.inj (hi.symm.trans he)).1
  cases step_move hstep with
  | reset => exact ⟨rfl, rfl, rfl, rfl, rfl⟩
  | host c rest t hi hn => exact (notTaken hi hn nofun).elim
  | arrive b rest hi hn => exact (notTaken hi hn nofun).elim
  | own rest u hi hm hheld =>
    obtain ⟨hstop, hread⟩ := hm.ends_read hl hr
    exact absurd ⟨hstop.trans hs, hread⟩ hheld
  | ownStopped rest u hi hm _ hread =>
    have hh : u.hostRead = false := State.hostRead_of_readInFlight hread
    rw [State.takeStop_eq]
    exact ⟨rfl, rfl, rfl, rfl, hh⟩

end Sys2Proof.Machine
end

section
/-!
PROOFS. The sequencer's entry operations, `STOP`, and the request frames (42_sequencer.md R190, R191, R195, R196, R199, R202,
R205, R215, R216, R230, 43_wire_frames.md R240 to R250).
-/

namespace Sys2Proof.Machine

/-! ### Entry operations (R190, R195, R215) -/

/-- An entry operation is accepted in its stage and `IDLE`, and refused everywhere else, whether or not the sequencer runs. -/
theorem State.direct_entry {s : State} (hh : s.hostRead = false) (st : Stage) (t : State) :
    s.direct (.next (if s.stage = st ∧ s.upc = .idle then t else s.respond .refused)) =
      .next (if s.stage = st ∧ s.upc = .idle then t else s.respond .refused) := by
  by_cases hu : s.upc = .idle
  · exact State.direct_idle (State.busy_false.2 ⟨by rw [hu]; rfl, hh⟩)
  · unfold State.direct
    split
    · rw [if_neg fun hc => hu hc.2]
    · rfl

theorem State.direct_accepted {s t : State} {st : Stage} (hh : s.hostRead = false) (hs : s.stage = st) (hu : s.upc = .idle) :
    s.direct (.next (if s.stage = st ∧ s.upc = .idle then t else s.respond .refused)) = .next t := by
  rw [State.direct_entry hh, if_pos ⟨hs, hu⟩]

theorem State.direct_refused {s t : State} {st : Stage} (hh : s.hostRead = false) (hr : s.stage ≠ st ∨ s.upc ≠ .idle) :
    s.direct (.next (if s.stage = st ∧ s.upc = .idle then t else s.respond .refused)) = .next (s.respond .refused) := by
  rw [State.direct_entry hh, if_neg (not_and_or.2 hr)]

/-- The line as `OPEN` leaves it, whichever way the port was. -/
theorem State.openLine_eq (s : State) :
    s.openLine = { s with portOpen := true, rxPending := if s.portOpen then s.rxPending else [] } := by
  cases hp : s.portOpen
  · exact State.openLine_of_closed hp
  · rw [State.openLine_of_open hp, if_pos rfl, ← hp]

/-- Settles O27: `direct_entry`, and `OPEN` on the port as it was. -/
theorem runAuthResult : Obligations.RunAuthResult := by
  refine fun u m w s hh => ⟨rfl, fun hs hu => ?accepted, State.direct_refused hh⟩
  case accepted =>
    refine (State.direct_accepted hh hs hu).trans ?_
    rw [State.openLine_eq]

theorem readDataFlags_eq (ufc : Bool) (sinks : BitVec 3) :
    readDataFlags ufc sinks = 0#4 ++ sinks ++ BitVec.ofBool ufc := by
  revert ufc sinks
  decide

/-- Settles O28: `direct_entry` for each of the two operations. -/
theorem runInitAndReadData : Obligations.RunInitAndReadData := by
  refine ⟨fun s hh => ⟨rfl, State.direct_accepted hh, State.direct_refused hh⟩,
    fun ufc sinks p s hh => ⟨?encoding, State.direct_accepted hh, State.direct_refused hh⟩⟩
  case encoding =>
    rw [encode, readDataFlags_eq]
    rfl

/-! ### `STOP` (R230) -/

theorem exec_stop_now {s : State} (hr : s.readInFlight = false) : exec .stop s = .next s.takeStop := by
  simp [exec, execStop, hr]

theorem exec_stop_held {s : State} (hr : s.readInFlight = true) (hs : s.stopPending = false) :
    exec .stop s = .next { s with stopPending := true } := by
  simp [exec, execStop, hr, hs]

theorem exec_stop_again {s : State} (hr : s.readInFlight = true) (hs : s.stopPending = true) :
    exec .stop s = .next s.respondOk := by
  simp [exec, execStop, hr, hs]

/-- Settles O29: taken at once outside a read, held or answered inside one. -/
theorem stopResult : Obligations.StopResult := by
  refine fun s => ⟨rfl, fun hr hu => ?atRest, fun hr hu => ?running, exec_stop_held, exec_stop_again⟩
  case atRest => rw [exec_stop_now hr, State.takeStop_eq, hu]; rfl
  case running => rw [exec_stop_now hr, State.takeStop_eq, hu]; rfl

/-! ### A request frame that is sent (R240 to R250) -/

/-- A wire row's two gates, both open. -/
theorem atPosition_open {i : Instr} {s k : State} (hf : fetchWire s = some i) (hp : s.portOpen = true) :
    atPosition i s (s.onOpenPort k) = .next k := by
  rw [atPosition_of hf, State.onOpenPort_open hp]

/-- `SEND` with a two-byte header logs nothing. -/
theorem State.send_valid (s : State) (p q : Byte) (d : Bytes) :
    s.send [p, q] d =
      { s with
        txf := sendFrame [p, q] d
        tx := s.tx ++ outbound
          ([p, q] ++ BitVec.ofNat 8 d.length :: (d ++ be16 (checksum [p, q] (BitVec.ofNat 8 d.length) d))) } := by
  simp [State.send_eq]

/-- A request row with a two-byte header, both gates open; `k` is what its position writes after the frame. -/
theorem atPosition_sends {i : Instr} {s : State} {p q : Byte} {d : Bytes} (k : State → State) (hf : fetchWire s = some i)
    (hp : s.portOpen = true) :
    atPosition i s (s.onOpenPort (k (s.send [p, q] d))) =
      .next (k { s with
        txf := sendFrame [p, q] d
        tx := s.tx ++ outbound
          ([p, q] ++ BitVec.ofNat 8 d.length :: (d ++ be16 (checksum [p, q] (BitVec.ofNat 8 d.length) d))) }) := by
  rw [atPosition_open hf hp, State.send_valid]

/-- Settles O33: the user selects the row, whose `SEND` is written out. -/
theorem authRequestsSent : Obligations.AuthRequestsSent := by
  intro s hu hp
  have hf : fetchWire s = some (authRequest s.user) := fetchWire_send (by rw [fetchRequest, hu])
  refine ⟨fun huser => ?plumber, fun huser => ?normal, fun huser => ?normalAlt, fun huser => ?service⟩
  all_goals
    rw [huser] at hf
    exact atPosition_sends State.afterAuthSend hf hp

/-- The checksum of a probe, whose data is the one byte 01 (R244, R250). -/
theorem checksum_probe (h : Bytes) : checksum h 1 [1] = BitVec.ofNat 16 (2 + sumBytes h) := by
  apply BitVec.eq_of_toNat_eq
  simp [checksum, Config.csumMod, sumBytes]
  omega

/-- A probe of any header, sent (R196, R250). -/
theorem State.send_probe (s : State) (h : Bytes) :
    s.send h [1] =
      { s with
        txf := ⟨some h, some 1, some [1], some (BitVec.ofNat 16 (2 + sumBytes h)), false, validPrepared h⟩
        tx := s.tx ++ (h ++ [1, 1]) ++ be16 (BitVec.ofNat 16 (2 + sumBytes h)) ++ [0x0D]
        log := s.log ++ (if h.length = 2 then [] else [.wRawInvalid]) } := by
  have hsum : checksum h (BitVec.ofNat 8 ([1] : Bytes).length) [1] = BitVec.ofNat 16 (2 + sumBytes h) :=
    checksum_probe h
  rw [State.send_eq, sendFrame_eq, hsum]
  simp [outbound, Config.frameEnd]

theorem sumBytes_pair (p q : Byte) : 2 + sumBytes [p, q] = 2 + p.toNat + q.toNat := by
  simp [sumBytes, Nat.add_assoc]

/-- Settles O34: the header selects the row; one of one byte makes a frame that is not valid, and is sent with its warning. -/
theorem probesSent : Obligations.ProbesSent := by
  intro s hu hp
  have hf : fetchWire s = some (probe s.probeHdr) := fetchWire_send (by rw [fetchRequest, hu])
  refine ⟨fun hh => ?first, fun p q hh hne => ?echo, fun p hh => ?short⟩
  all_goals rw [hh] at hf
  case first => exact atPosition_sends State.afterP1Send hf hp
  case echo =>
    have hrow : probe ⟨p, some q⟩ = .echoProbe p (some q) := if_neg (by simpa [maHeader] using hne)
    refine (atPosition_open (hrow ▸ hf) hp).trans ?_
    rw [Option.toList_some, State.send_probe, sumBytes_pair, if_pos (by rfl), List.append_nil]
    rfl
  case short =>
    have hrow : probe ⟨p, none⟩ = .echoProbe p none := if_neg (by simp [maHeader])
    refine (atPosition_open (hrow ▸ hf) hp).trans ?_
    rw [Option.toList_none, State.send_probe, if_neg (by simp)]
    simp [sumBytes, State.afterP1Send, State.countAttempt, validPrepared, Config.hdrLen]

/-- Settles O35: each position sends its one row; `M2_PROBE` is counted by the position that sends it. -/
theorem phaseRequestsSent : Obligations.PhaseRequestsSent := by
  refine fun s hp => ⟨fun hu => ?phase2, fun hu => ?phase4, fun hu => ?phase3⟩
  case phase2 =>
    refine (atPosition_open (fetchWire_send (by rw [fetchRequest, hu])) hp).trans ?_
    rw [if_pos hu, State.send_valid]
    rfl
  case phase4 =>
    refine (atPosition_open (fetchWire_send (by rw [fetchRequest, hu])) hp).trans ?_
    rw [if_neg (by rw [hu]; nofun), State.send_valid]
    rfl
  case phase3 =>
    exact atPosition_sends (fun t => { t.countAttempt with upc := .p3Read }) (fetchWire_send (by rw [fetchRequest, hu])) hp

theorem exchangeRequest_m3 {lastHdr : Option Hdr} (h : lastHdr = some m3Header) (toggle : Bool) :
    exchangeRequest lastHdr toggle = .m3Req := if_pos h

theorem exchangeRequest_other {lastHdr : Option Hdr} (h : lastHdr ≠ some m3Header) (toggle : Bool) :
    exchangeRequest lastHdr toggle = if toggle then .m2Req else .m1Req := if_neg h

/-- Settles O36: the last header, then the toggle select the row. -/
theorem exchangeRequestsSent : Obligations.ExchangeRequestsSent := by
  intro s hp hu
  have hf : fetchWire s = some (exchangeRequest s.lastHdr s.toggle) := fetchWire_send (by rw [fetchRequest, hu])
  refine ⟨fun hl => ?m3, fun hl ht => ?m1, fun hl ht => ?m2⟩
  case m3 =>
    rw [exchangeRequest_m3 hl] at hf
    exact atPosition_sends (fun t => { t.countAttempt with upc := .xRead }) hf hp
  all_goals rw [exchangeRequest_other hl, ht] at hf
  case m1 => exact atPosition_sends (fun t => { t.countAttempt with toggle := true, upc := .xRead }) hf hp
  case m2 => exact atPosition_sends (fun t => { t.countAttempt with toggle := false, upc := .xRead }) hf hp

end Sys2Proof.Machine
end

section
/-!
PROOFS. The reading micro-steps (42_sequencer.md R192, R197, R198, R200, R203, R206, R217): what each makes of the result of its
`READ`, and which of them a step runs. A reply row, a silence and a one-byte burst at one position run the same micro-step.
-/

namespace Sys2Proof.Machine

/-! ### What each makes of the result of its `READ`

`t` is the state the `READ` leaves, and `r` its result. -/

section Result

variable {s t : State} {r : ReadResult} {c : CommCode}

theorem authReadStep_ok (h : s.readLine = (t, .ok)) :
    authReadStep s = { t with upc := .idle, responses := t.responses ++ [.ok .empty] } := by
  simp only [authReadStep, h]
  rfl

theorem authReadStep_err (h : s.readLine = (t, .err c)) :
    authReadStep s = { t with upc := .authSleep, log := t.log ++ [.eAuthRetry] } := by
  simp only [authReadStep, h]
  rfl

/-- P1_READ of anything but silence: a failure is logged, and the header is looked at all the same (R197). -/
theorem p1ReadStep_reply (h : s.readLine = (t, r)) (hr : r ≠ .err .globalTimeout) :
    p1ReadStep s =
      (t.logEvents (if r = .ok then [] else [.eInitSalvage])).salvageHeader.afterHeader := by
  cases r with
  | ok => simp only [p1ReadStep, h, if_true, State.logEvents_nil]
  | err c =>
    cases c with
    | globalTimeout => exact absurd rfl hr
    | _ => simp only [p1ReadStep, h]; rfl

theorem p1ReadStep_silence (h : s.readLine = (t, .err .globalTimeout)) :
    p1ReadStep s =
      { t with
        upc := .halt, err := ⟨.initTimeout, t.stage, t.attempts, some .globalTimeout⟩, log := t.log ++ [.eTerminal]
        responses := t.responses ++ [.protocolFatal .initTimeout t.stage t.attempts] } := by
  simp only [p1ReadStep, h]
  rfl

theorem State.tolerate_eq (t : State) (r : ReadResult) :
    t.tolerate r = { t with log := t.log ++ (if r = .ok then [] else [.eInitTolerated]) } := by
  cases r
  · simp [State.tolerate]
  · rfl

theorem p2CheckRead_eq (h : s.readLine = (t, r)) :
    p2CheckRead s = { t with log := t.log ++ (if r = .ok then [] else [.eInitTolerated]), upc := .p2Wait } := by
  simp only [p2CheckRead, h, State.tolerate_eq]

theorem p3ReadStep_eq (h : s.readLine = (t, r)) :
    p3ReadStep s = { t with log := t.log ++ (if r = .ok then [] else [.eInitTolerated]), upc := .p4Wait } := by
  simp only [p3ReadStep, h, State.tolerate_eq]

theorem p4ReadStep_reply (h : s.readLine = (t, r)) (hr : r ≠ .err .globalTimeout) :
    p4ReadStep s =
      { t with
        stage := .xchg, upc := .idle, responses := t.responses ++ [.ok .empty]
        log := t.log ++ (if r = .ok then [] else [.eInitTolerated]) } := by
  have e : p4ReadStep s = (t.tolerate r).completeInit := by
    cases r with
    | ok => simp only [p4ReadStep, h]
    | err c =>
      cases c with
      | globalTimeout => exact absurd rfl hr
      | _ => simp only [p4ReadStep, h]
  rw [e, State.tolerate_eq]
  rfl

theorem p4ReadStep_again (h : s.readLine = (t, .err .globalTimeout)) (h4 : t.p4Try.toNat < 20) :
    p4ReadStep s = { t with upc := .p4Send } := by
  simp only [p4ReadStep, h]
  exact if_pos h4

theorem p4ReadStep_abort (h : s.readLine = (t, .err .globalTimeout)) (h4 : 20 ≤ t.p4Try.toNat) :
    p4ReadStep s =
      { t with
        stage := .xchg, upc := .idle, log := t.log ++ [.wInitAbort], responses := t.responses ++ [.ok .empty] } := by
  simp only [p4ReadStep, h]
  exact if_neg (Nat.not_lt.2 h4)

theorem xReadStep_reply (p : State → State) (h : s.readLine = (t, r)) (hr : r = .ok ∨ r = .err .checksumFailure) :
    xReadStep p s = { p t.noteHeader with upc := .xSleep } := by
  rcases hr with rfl | rfl <;> simp only [xReadStep, h]

theorem xReadStep_terminal (p : State → State) (h : s.readLine = (t, .err c)) (hc : c ≠ .checksumFailure) :
    xReadStep p s =
      { t with
        upc := .halt, err := ⟨.commError, t.stage, t.attempts, some c⟩, log := t.log ++ [.eTerminal]
        responses := t.responses ++ [.commError c] } := by
  cases c with
  | checksumFailure => exact absurd rfl hc
  | _ => simp only [xReadStep, h]; rfl

end Result

/-! ### The header just received (R197, R198, R218) -/

theorem State.salvageHeader_of {s : State} {h : Bytes} {x : Hdr} (hh : s.rxf.hdr = some h) (hx : Hdr.ofBytes h = some x) :
    s.salvageHeader = { s with probeHdr := x } := by
  simp [State.salvageHeader, hh, hx]

theorem State.noteHeader_of {s : State} {h : Bytes} {x : Hdr} (hh : s.rxf.hdr = some h) (hx : Hdr.ofBytes h = some x) :
    s.noteHeader = { s with lastHdr := some x } := by
  simp [State.noteHeader, hh, hx]

theorem State.afterHeader_exit {s : State} (h : exitTest s.probeHdr = true) :
    s.afterHeader = { s with stage := .postInit, burst := 0, upc := .p2Send } := if_pos h

theorem State.afterHeader_again {s : State} (h : exitTest s.probeHdr = false) :
    s.afterHeader = { s with upc := .p1Send } := if_neg (by simp [h])

/-! ### Which micro-step a step runs -/

/-- Where a read of the sequencer's leads from a micro-state `u`. -/
def ReadsTo (u : Upc) (s t : State) : Prop :=
  match u with
  | .authRead => t = authReadStep s
  | .p1Read => t = p1ReadStep s
  | .p2Check => (s.rxPending = [] ∧ t = { s with upc := .p2Wait }) ∨ (s.rxPending ≠ [] ∧ t = p2CheckRead s)
  | .p3Read => t = p3ReadStep s
  | .p4Read => t = p4ReadStep s
  | .xRead => ∃ p, t = xReadStep p s
  | _ => True

theorem OwnMove.readsTo {s t : State} (h : OwnMove s t) (hh : s.hostRead = false) : ReadsTo s.upc s t := by
  cases h with
  | hostRead hr => rw [hh] at hr; cases hr
  | rest _ hu => rcases hu with hu | hu <;> rw [hu] <;> trivial
  | p2CheckNone _ hu hw => rw [hu]; exact .inl ⟨hw, rfl⟩
  | p2CheckRead _ hu hw => rw [hu]; exact .inr ⟨hw, rfl⟩
  | xRead p _ _ hu => rw [hu]; exact ⟨p, rfl⟩
  | authRead _ hu | p1Read _ hu | p3Read _ hu | p4Read _ hu => rw [hu]; rfl
  | xSend h toggle _ _ hu => rw [hu]; trivial
  | authSend d _ _ hu => rw [hu]; trivial
  | p1Send _ hu | p2Send _ hu | p3Send _ hu | p4Send _ hu => rw [hu]; trivial
  | authSleep _ hu | p2Wait _ hu | p4Wait _ hu | xSleep _ hu => rw [hu]; trivial

/-- With the port open the block's own micro-step does not stop, and a read leads where its position says. -/
theorem ownStep_reads {s : State} {u : Upc} (hh : s.hostRead = false) (hp : s.portOpen = true) (hu : s.upc = u) :
    ∃ t, ownStep s = .next t ∧ ReadsTo u s t := by
  rcases ownStep_stops s with ⟨t, e⟩ | ⟨_, hc, _⟩
  · exact ⟨t, e, hu ▸ (ownStep_move e).readsTo hh⟩
  · rw [hp] at hc; cases hc

end Sys2Proof.Machine
end

section
/-!
PROOFS. The replies by class (42_sequencer.md R192, R197, R198, R200, R203, R206, R217 to R221, 43_wire_frames.md R251 to R256).
The row of a reply is told by its header; its meaning is the reading micro-step of its position.
-/

namespace Sys2Proof.Machine

/-! ### The row of a reply -/

/-- A reply row runs its micro-step when the burst that waits has its header. -/
theorem atPosition_reply {s k : State} {i : Instr} {b : Burst} {rest : List Burst} {q : Byte} {r : Bytes}
    (hp : s.portOpen = true) (hw : s.rxPending = b :: rest) (hq : b.rest = q :: r)
    (hu : isReading s.upc = true ∨ s.upc = .p2Check)
    (hd : decodeReply s.upc (decide (burstResult b = .ok)) b.first q = .ok i) :
    atPosition i s (s.onOpenPort k) = .next k := by
  refine atPosition_open ?_ hp
  rw [fetchWire_of_burst hw hq (fetchRequest_reading hu), hd]
  rfl

theorem burstResult_not_timeout (b : Burst) : burstResult b ≠ .err .globalTimeout := assemble_not_timeout _

/-! ### Authentication and the end of phase 1 -/

theorem decodeReply_mDigit_any (ok : Bool) (digit : BitVec 4) :
    decodeReply .p1Read ok 0x4D (0x3#4 ++ digit) = .ok (.rspMDigit digit) := decodeReply_mDigit digit

theorem exitTest_mDigit (digit : BitVec 4) : exitTest ⟨0x4D, some (0x3#4 ++ digit)⟩ = true := by
  revert digit
  decide

/-- P1_READ of a burst of two bytes or more, up to what it does with the header. -/
theorem p1ReadStep_burst {s : State} {b : Burst} {rest : List Burst} {q : Byte} {r : Bytes} (hw : s.rxPending = b :: rest)
    (hq : b.rest = q :: r) :
    p1ReadStep s =
      State.afterHeader { s.afterRead b rest with
        probeHdr := ⟨b.first, some q⟩
        log := (s.afterRead b rest).log ++ (if burstResult b = .ok then [] else [.eInitSalvage]) } := by
  have hdr (es : List LogEvent) : ((s.afterRead b rest).logEvents es).rxf.hdr = some [b.first, q] :=
    State.afterRead_hdr (s := s) (rest := rest) hq
  rw [p1ReadStep_reply (State.readLine_afterRead hw) (burstResult_not_timeout b), State.salvageHeader_of (hdr _) rfl]
  rfl

/-- Settles O39: `RSP_AUTH` is every reply that reads `ok`; `RSP_MDIGIT`'s header passes the exit test. -/
theorem authAndMDigitReplies : Obligations.AuthAndMDigitReplies := by
  refine ⟨fun s b rest q r hu hp hw hq hok => ?auth, fun s b rest digit r hu hp hw hfirst hq => ?mDigit⟩
  case auth =>
    refine (atPosition_reply hp hw hq (by simp [hu, isReading]) (by simp [hu, decodeReply, hok])).trans ?_
    rw [authReadStep_ok ((State.readLine_afterRead hw).trans (by rw [hok]))]
    rfl
  case mDigit =>
    refine (atPosition_reply hp hw hq (by simp [hu, isReading]) ?_).trans ?_
    · rw [hu, hfirst, decodeReply_mDigit_any]
    · rw [p1ReadStep_burst hw hq, hfirst, State.afterHeader_exit (exitTest_mDigit digit)]

/-! ### Replies of no class, before the data exchange -/

theorem isMDigit_iff (p q : Byte) : isMDigit p q = true ↔ p = 0x4D ∧ q >>> 4 = 0x03 := by
  have nibble : ∀ q : Byte, q.extractLsb' 4 4 = 0x3#4 ↔ q >>> 4 = 0x03 := by decide
  simp [isMDigit, nibble]

theorem exitTest_two (p q : Byte) : exitTest ⟨p, some q⟩ = isMDigit p q := rfl

/-- `RSP_OTHER` at the position of a read, where the decoder puts the reply in no other class. -/
theorem exec_rspOther {s : State} {u : Upc} {b : Burst} {rest : List Burst} {q : Byte} {r : Bytes} (hp : s.portOpen = true)
    (hw : s.rxPending = b :: rest) (hq : b.rest = q :: r) (hu : s.upc = u) (hread : isReading u = true ∨ u = .p2Check)
    (hd : decodeReply u (decide (burstResult b = .ok)) b.first q = .ok (.rspOther b.first q)) :
    exec (.rspOther b.first q) s = .next (otherReply s) := by
  subst hu
  exact atPosition_reply hp hw hq hread hd

/-- P1_READ of a one-byte burst: its byte is the next probe's header (R198). -/
theorem p1ReadStep_oneByte {s : State} {x : Byte} {rest : List Burst} (hw : s.rxPending = ⟨x, []⟩ :: rest) :
    p1ReadStep s =
      { s with
        rxPending := rest, rxf := ⟨some [x], none, none, none, false, false⟩, rxbuf := [(0, x)], rxbufN := 1
        probeHdr := ⟨x, none⟩, upc := .p1Send, log := s.log ++ [.eInitSalvage] } := by
  rw [p1ReadStep_reply (State.readLine_oneByte hw) nofun, State.salvageHeader_of rfl rfl, State.afterHeader_again rfl]
  rfl

/-- A burst that is there ends the read in flight before any event but a reset (60_exceptions.md R271) [log 6]. -/
theorem step_reads {s t : State} {u : Upc} {b : Burst} {rest : List Burst} (hw : s.rxPending = b :: rest)
    (hi : ∀ r, s.inputs ≠ .reset :: r) (hu : s.upc = u) (hread : isReading u = true ∨ u = .p2Check)
    (ho : ownStep s = .next t) (ht : t.stopPending = false) : step s = .next t := by
  subst hu
  refine step_of_ready ?_ hi ho ht
  rcases hread with hr | hr <;> simp [State.readReady, State.readInFlight, hr, hw]

/-- Settles O47: the burst is ready, and P1_READ runs. -/
theorem oneByteSalvaged : Obligations.OneByteSalvaged := by
  intro s x rest hu hp hh hs hw hi
  obtain ⟨_, e, rfl⟩ := ownStep_reads hh hp hu
  rw [p1ReadStep_oneByte hw] at e
  exact step_reads hw hi hu (.inl rfl) e hs

/-- Settles O43: the row `RSP_OTHER` runs its position's micro-step, which a one-byte burst runs without a row. -/
theorem otherReply_byPosition : Obligations.OtherReply := by
  refine ⟨fun s b rest q r hp hw hq => ⟨fun hu herr => ?auth, fun hu hne => ?p1, fun hu => ?p2, fun hu => ?p3,
      fun hu => ?p4⟩,
    fun s x rest hp hh hs hw hi => ⟨fun hu => ?authOne, fun hu => oneByteSalvaged s x rest hu hp hh hs hw hi,
      fun hu => ?p2One, fun hu => ?p3One, fun hu => ?p4One⟩⟩
  case auth =>
    obtain ⟨c, hc⟩ : ∃ c, burstResult b = .err c := by
      cases hb : burstResult b with
      | ok => exact absurd hb herr
      | err c => exact ⟨c, rfl⟩
    rw [exec_rspOther hp hw hq hu (.inl rfl) (by simp [decodeReply, hc])]
    simp only [otherReply, hu]
    rw [authReadStep_err ((State.readLine_afterRead hw).trans (by rw [hc]))]
  case p1 =>
    have hn : isMDigit b.first q = false := by rwa [← Bool.not_eq_true, isMDigit_iff]
    rw [exec_rspOther hp hw hq hu (.inl rfl) (by simp [decodeReply, hn])]
    simp only [otherReply, hu]
    rw [p1ReadStep_burst hw hq, State.afterHeader_again ((exitTest_two ..).trans hn)]
  case p2 =>
    rw [exec_rspOther hp hw hq hu (.inr rfl) rfl]
    simp only [otherReply, hu, p2CheckRead_eq (State.readLine_afterRead hw)]
  case p3 =>
    rw [exec_rspOther hp hw hq hu (.inl rfl) rfl]
    simp only [otherReply, hu, p3ReadStep_eq (State.readLine_afterRead hw)]
  case p4 =>
    rw [exec_rspOther hp hw hq hu (.inl rfl) rfl]
    simp only [otherReply, hu, p4ReadStep_reply (State.readLine_afterRead hw) (burstResult_not_timeout b)]
    rfl
  case authOne =>
    obtain ⟨_, e, rfl⟩ := ownStep_reads hh hp hu
    rw [authReadStep_err (State.readLine_oneByte hw)] at e
    exact step_reads hw hi hu (.inl rfl) e hs
  case p2One =>
    obtain ⟨_, e, ⟨hn, -⟩ | ⟨-, rfl⟩⟩ := ownStep_reads hh hp hu
    · rw [hw] at hn
      cases hn
    · rw [p2CheckRead_eq (State.readLine_oneByte hw)] at e
      exact step_reads hw hi hu (.inr rfl) e hs
  case p3One =>
    obtain ⟨_, e, rfl⟩ := ownStep_reads hh hp hu
    rw [p3ReadStep_eq (State.readLine_oneByte hw)] at e
    exact step_reads hw hi hu (.inl rfl) e hs
  case p4One =>
    obtain ⟨_, e, rfl⟩ := ownStep_reads hh hp hu
    rw [p4ReadStep_reply (State.readLine_oneByte hw) nofun] at e
    exact step_reads hw hi hu (.inl rfl) e hs

end Sys2Proof.Machine
end

section
/-!
PROOFS. Replies in the data-exchange loop (42_sequencer.md R217 to R221, 43_wire_frames.md R252 to R255).
-/

namespace Sys2Proof.Machine

/-! ### A complete frame -/

/-- A burst read as a complete frame, by its fields; it is short enough not to be cut. -/
theorem burst_complete {b : Burst} (h : burstResult b = .ok ∨ burstResult b = .err .checksumFailure) :
    ∃ (x y z : Byte) (d : Bytes) (p q : Byte), b.bytes = [x, y, z] ++ d ++ [p, q] ∧ d.length = z.toNat := by
  obtain ⟨x, y, z, d, p, q, e, hd⟩ := assemble_complete h
  have hz := z.isLt
  have hl : (b.bytes.take 261).length = d.length + 5 := by rw [e]; simp
  rw [List.take_of_length_le (by rw [List.length_take] at hl; omega)] at e
  exact ⟨x, y, z, d, p, q, e, hd⟩

/-- What a complete frame is read as (41_transport.md R163): valid when it reads `ok`, else with code 2. -/
theorem read_complete {b : Burst} {x y z p q : Byte} {d : Bytes} (hb : b.bytes = [x, y, z] ++ d ++ [p, q])
    (hd : d.length = z.toNat) :
    (burstResult b = .ok ∨ burstResult b = .err .checksumFailure) ∧
      (assemble (b.bytes.take 261)).frame =
        ⟨some [x, y], some z, some d, some (join16 p q), true, decide (burstResult b = .ok)⟩ := by
  have hz := z.isLt
  have huncut : b.bytes.take 261 = [x, y, z] ++ d ++ [p, q] := by
    rw [hb, List.take_of_length_le]
    simp
    omega
  rw [burstResult, huncut, assemble_of_fields, if_neg (not_not_intro hd), assembleChecksum_eq]
  split
  · exact ⟨.inl rfl, rfl⟩
  · exact ⟨.inr rfl, rfl⟩

/-- A complete reply in X_READ: its header is noted, and `f` is what its class does with it. -/
theorem xReadStep_complete {s : State} {b : Burst} {rest : List Burst} {q : Byte} {r : Bytes} (f : State → State)
    (hw : s.rxPending = b :: rest) (hq : b.rest = q :: r)
    (hr : burstResult b = .ok ∨ burstResult b = .err .checksumFailure) :
    xReadStep f s =
      { f { s.afterRead b rest with lastHdr := some ⟨b.first, some q⟩ } with upc := .xSleep } := by
  rw [xReadStep_reply f (State.readLine_afterRead hw) hr,
    State.noteHeader_of (h := [b.first, q]) (State.afterRead_hdr hq) rfl]

/-- The row of an M-reply in X_READ. -/
theorem decodeReply_exchange {s : State} (hu : s.upc = .xRead) (ok : Bool) (p q : Byte) :
    decodeReply s.upc ok p q = .ok (classifyExchange p q) := by rw [hu]; rfl

theorem reading_xRead {s : State} (hu : s.upc = .xRead) : isReading s.upc = true ∨ s.upc = .p2Check := .inl (by rw [hu]; rfl)

/-- Settles O42: `RSP_M3` and `RSP_OTHER` do nothing with the reply but note its header. -/
theorem otherExchangeReply : Obligations.OtherExchangeReply := by
  refine fun s b rest q r hu hp hw hq hr => ⟨fun hfirst hq3 => ?m3, fun hne => ?other⟩
  case m3 =>
    subst hq3
    refine (atPosition_reply hp hw hq (reading_xRead hu) ?_).trans ?_
    · rw [decodeReply_exchange hu, hfirst]; rfl
    · rw [xReadStep_complete id hw hq hr, hfirst, id]
  case other =>
    have hclass : classifyExchange b.first q = .rspOther b.first q := by
      unfold classifyExchange
      rw [if_neg, if_neg, if_neg] <;> rintro ⟨h1, h2⟩ <;> exact hne ⟨h1, by simp [h2]⟩
    refine (atPosition_reply hp hw hq (reading_xRead hu) (by rw [decodeReply_exchange hu, hclass])).trans ?_
    simp only [otherReply, hu]
    rw [xReadStep_complete id hw hq hr, id]

/-! ### Telemetry (R220, R221) -/

theorem routeRecords_complete (f : FieldDecoder) (mask : BitVec 3) (x y z p q : Byte) (d : Bytes) (ok : Bool) (t : Int)
    {bs : Bytes} (hb : bs = [x, y, z] ++ d ++ [p, q]) :
    routeRecords f mask ⟨some [x, y], some z, some d, some (join16 p q), true, ok⟩ t =
      (if mask.getLsbD 0 = true ∧ ok = true then [.kv t (hexOf bs)] else []) ++
        (if mask.getLsbD 1 = true then [.file t (if ok then .valid else .invalid) (hexOf bs)] else []) ++
        (if mask.getLsbD 2 = true ∧ ok = true then [.tab (t :: f ((bs.drop 3).take (bs.length - 5)))] else []) := by
  have hhex : hexData ⟨some [x, y], some z, some d, some (join16 p q), true, ok⟩ = hexOf bs := by
    simp [hexData, Frame.hexForm, Frame.image, be16_join16, hb]
  have hdata : (bs.drop 3).take (bs.length - 5) = d := by simp [hb]
  simp only [routeRecords, hhex, hdata, Bool.and_eq_true, Option.getD_some]

section Route

variable {s : State} (f : FieldDecoder)

theorem State.routeTelemetry_clock (hc : s.ufc = false) :
    s.routeTelemetry f =
      { s with
        sinks := s.sinks ++ routeRecords f s.sinkMask s.rxf (Config.now s.clockReads), clockReads := s.clockReads + 1 } := by
  simp [State.routeTelemetry, hc, State.route, State.emit]

theorem State.routeTelemetry_furnace {w : Word64} (hc : s.ufc = true) (ht : s.ts = some w) :
    s.routeTelemetry f = { s with sinks := s.sinks ++ routeRecords f s.sinkMask s.rxf w.toInt } := by
  simp [State.routeTelemetry, hc, ht, State.route, State.emit]

theorem State.routeTelemetry_none (hc : s.ufc = true) (ht : s.ts = none) :
    s.routeTelemetry f = { s with log := s.log ++ [.wNoTimestamp] } := by
  simp [State.routeTelemetry, hc, ht, State.logEvents]

end Route

/-- Settles O40: the reply is a complete frame, whose records `routeRecords_complete` writes out. -/
theorem telemetryReply : Obligations.TelemetryReply := by
  intro s b rest r ok hu hp hw hfirst hq hr
  have hcomplete : burstResult b = .ok ∨ burstResult b = .err .checksumFailure := by
    cases ok
    · exact .inr hr
    · exact .inl hr
  have hok : decide (burstResult b = .ok) = ok := by cases ok <;> simp [hr]
  obtain ⟨x, y, z, d, p, q, hb, hd⟩ := burst_complete hcomplete
  obtain ⟨-, hframe⟩ := read_complete hb hd
  rw [hok] at hframe
  have hrow : decodeReply s.upc (decide (burstResult b = .ok)) b.first 0x31 = .ok .rspM1 := by
    rw [decodeReply_exchange hu, hfirst]
    rfl
  have hrxf : (s.afterRead b rest).rxf = ⟨some [x, y], some z, some d, some (join16 p q), true, ok⟩ := hframe
  have hexec : exec .rspM1 s = .next
      { State.routeTelemetry Config.decodeFields { s.afterRead b rest with lastHdr := some ⟨0x4D, some 0x31⟩ } with
        upc := .xSleep } := by
    refine (atPosition_reply hp hw hq (reading_xRead hu) hrow).trans ?_
    rw [xReadStep_complete _ hw hq hcomplete, hfirst]
  refine ⟨fun t ht => ?recorded, fun hc ht => ?dropped⟩
  case recorded =>
    rw [hexec, ← routeRecords_complete Config.decodeFields s.sinkMask x y z p q d ok t hb, ← hrxf]
    rcases ht with ⟨hc, rfl⟩ | ⟨w, hc, hts, rfl⟩
    · rw [State.routeTelemetry_clock _ (by exact hc), if_neg (by simp [hc])]
      rfl
    · rw [State.routeTelemetry_furnace _ (by exact hc) (by exact hts), if_pos hc]
      rfl
  case dropped => rw [hexec, State.routeTelemetry_none _ (by exact hc) (by exact ht)]

/-! ### The furnace clock (R219) -/

section Clock

variable {s : State} {f : EpochConverter} {d : Bytes}

theorem State.decodeClock_off (hc : s.ufc = false) : s.decodeClock f = s := if_neg (by simp [hc])

theorem State.decodeClock_set {w : Word64} (hc : s.ufc = true) (hd : s.rxf.data = some d) (hw : clockOf f d = some w) :
    s.decodeClock f = { s with ts := some w } := by
  simp [State.decodeClock, hc, hd, hw]

theorem State.decodeClock_failed (hc : s.ufc = true) (hd : s.rxf.data = some d) (hw : clockOf f d = none) :
    s.decodeClock f = { s with log := s.log ++ [.wClockDecode] } := by
  simp [State.decodeClock, hc, hd, hw, State.logEvents]

theorem clockOf_short (h : d.length < 7) : clockOf f d = none := by
  unfold clockOf
  split
  case h_1 =>
    simp only [List.length_cons] at h
    omega
  case h_2 => rfl

end Clock

/-- Settles O41: the reply is a complete frame, whose data field is `d`; `clockOf` decides between the timestamp and the log. -/
theorem clockReply : Obligations.ClockReply := by
  intro s b rest d n p q hu hp hw hb hd
  obtain ⟨hfirst, hq⟩ : b.first = 0x4D ∧ b.rest = 0x32 :: n :: (d ++ [p, q]) := by
    simpa [Burst.bytes] using hb
  obtain ⟨hcomplete, hframe⟩ := read_complete hb hd
  have hdata : ({ s.afterRead b rest with lastHdr := some ⟨0x4D, some 0x32⟩ } : State).rxf.data = some d :=
    congrArg Frame.data hframe
  have hrow : decodeReply s.upc (decide (burstResult b = .ok)) b.first 0x32 = .ok .rspM2 := by
    rw [decodeReply_exchange hu, hfirst]
    rfl
  have hexec : exec .rspM2 s = .next
      { State.decodeClock Config.toEpoch { s.afterRead b rest with lastHdr := some ⟨0x4D, some 0x32⟩ } with
        upc := .xSleep } := by
    refine (atPosition_reply hp hw hq (reading_xRead hu) hrow).trans ?_
    rw [xReadStep_complete _ hw hq hcomplete, hfirst]
  refine ⟨fun hc => ?off, fun y wd mo dd hh mi sec more hc hd7 => ?clock, fun hc hshort => ?short⟩
  case off => rw [hexec, State.decodeClock_off (by exact hc)]
  case clock =>
    subst hd7
    rw [hexec]
    cases he : Config.toEpoch (2000 + y.toNat) mo.toNat dd.toNat hh.toNat mi.toNat sec.toNat with
    | some w =>
      rw [State.decodeClock_set (by exact hc) hdata (by exact he)]
      simp
    | none =>
      rw [State.decodeClock_failed (by exact hc) hdata (by exact he)]
      rfl
  case short => rw [hexec, State.decodeClock_failed (by exact hc) hdata (clockOf_short hshort)]

end Sys2Proof.Machine
end

section
/-!
PROOFS. Reads that end in silence, the waits, and the terminal error of the data exchange (42_sequencer.md R192, R193, R197, R200,
R201, R203, R204, R206, R217, R222, 60_exceptions.md R273 to R276).
-/

namespace Sys2Proof.Machine

/-- Settles O46: whatever the class of the burst, X_READ raises the error of its code. -/
theorem exchangeErrorTerminal : Obligations.ExchangeErrorTerminal := by
  intro s b rest c hu hp hh hs hw hi herr hc
  obtain ⟨_, e, f, rfl⟩ := ownStep_reads hh hp hu
  rw [xReadStep_terminal f ((State.readLine_afterRead hw).trans (by rw [herr])) hc] at e
  exact step_reads hw hi hu (.inl rfl) e hs

/-! ### Silence -/

/-- With the port open and nothing waiting, the block's own micro-step at each reading position. -/
theorem ownStep_silence {s : State} (hh : s.hostRead = false) (hp : s.portOpen = true) (hw : s.rxPending = []) :
    (s.upc = .authRead →
      ownStep s = .next { s.afterSilence with upc := .authSleep, log := s.log ++ [.eAuthRetry] }) ∧
    (s.upc = .p1Read → ownStep s = .next
      { s.afterSilence with
        upc := .halt, err := ⟨.initTimeout, s.stage, s.attempts, some .globalTimeout⟩, log := s.log ++ [.eTerminal]
        responses := s.responses ++ [.protocolFatal .initTimeout s.stage s.attempts] }) ∧
    (s.upc = .p2Check → ownStep s = .next { s with upc := .p2Wait }) ∧
    (s.upc = .p3Read →
      ownStep s = .next { s.afterSilence with upc := .p4Wait, log := s.log ++ [.eInitTolerated] }) ∧
    (s.upc = .p4Read → s.p4Try.toNat < 20 → ownStep s = .next { s.afterSilence with upc := .p4Send }) ∧
    (s.upc = .p4Read → 20 ≤ s.p4Try.toNat → ownStep s = .next
      { s.afterSilence with
        stage := .xchg, upc := .idle, log := s.log ++ [.wInitAbort], responses := s.responses ++ [.ok .empty] }) ∧
    (s.upc = .xRead → ownStep s = .next
      { s.afterSilence with
        upc := .halt, err := ⟨.commError, s.stage, s.attempts, some .globalTimeout⟩, log := s.log ++ [.eTerminal]
        responses := s.responses ++ [.commError .globalTimeout] }) := by
  have hread := State.readLine_afterSilence hw
  refine ⟨fun hu => ?auth, fun hu => ?p1, fun hu => ?p2, fun hu => ?p3, fun hu h4 => ?p4, fun hu h4 => ?abort,
    fun hu => ?x⟩
  case auth =>
    obtain ⟨_, e, rfl⟩ := ownStep_reads hh hp hu
    rwa [authReadStep_err hread] at e
  case p1 =>
    obtain ⟨_, e, rfl⟩ := ownStep_reads hh hp hu
    rwa [p1ReadStep_silence hread] at e
  case p2 =>
    obtain ⟨_, e, ⟨-, rfl⟩ | ⟨hn, -⟩⟩ := ownStep_reads hh hp hu
    · exact e
    · exact absurd hw hn
  case p3 =>
    obtain ⟨_, e, rfl⟩ := ownStep_reads hh hp hu
    rwa [p3ReadStep_eq hread] at e
  case p4 =>
    obtain ⟨_, e, rfl⟩ := ownStep_reads hh hp hu
    rwa [p4ReadStep_again hread h4] at e
  case abort =>
    obtain ⟨_, e, rfl⟩ := ownStep_reads hh hp hu
    rwa [p4ReadStep_abort hread h4] at e
  case x =>
    obtain ⟨_, e, f, rfl⟩ := ownStep_reads hh hp hu
    rwa [xReadStep_terminal f hread nofun] at e

/-- Settles O45: `ownStep_silence` in the step in which time passes. -/
theorem silenceByPosition : Obligations.SilenceByPosition := by
  intro s rest hi hh hs hp hw
  have hr := State.readReady_of_silence hw
  obtain ⟨auth, p1, p2, p3, p4, abort, x⟩ := ownStep_silence (s := { s with inputs := rest }) hh hp hw
  exact ⟨fun hu => step_of_elapse hi hr (auth hu) hs, fun hu => step_of_elapse hi hr (p1 hu) hs,
    fun hu => step_of_elapse hi hr (p2 hu) hs, fun hu => step_of_elapse hi hr (p3 hu) hs,
    fun hu h4 => step_of_elapse hi hr (p4 hu h4) hs, fun hu h4 => step_of_elapse hi hr (abort hu h4) hs,
    fun hu => step_of_elapse hi hr (x hu) hs⟩

/-! ### The waits, `IDLE` and `HALT` -/

/-- The micro-states that neither send nor read. -/
def rests : Upc → Bool
  | .idle | .authSleep | .p2Wait | .p4Wait | .xSleep | .halt => true
  | _ => false

theorem not_reading_of_rests {u : Upc} (h : rests u = true) : isReading u = false ∧ u ≠ .p2Check := by
  revert h
  cases u <;> decide

theorem decodeReply_of_rests {u : Upc} (h : rests u = true) (ok : Bool) :
    decodeReply u ok = fun _ _ => .error .noReply := by
  cases u
  case idle | authSleep | p2Wait | p4Wait | xSleep | halt => rfl
  all_goals cases h

theorem fetchWire_of_rests {s : State} (h : rests s.upc = true) : fetchWire s = none := by
  refine fetchWire_none ?_ (.inr (decodeReply_of_rests h))
  revert h
  cases hu : s.upc <;> simp [rests, fetchRequest, hu]

/-- Where the sequencer rests, the micro-step of its position runs. -/
theorem ownStep_rests {s t : State} {u : Upc} (hh : s.hostRead = false) (hu : s.upc = u) (hr : rests u = true)
    (hm : microStep s = .next t) : ownStep s = .next t :=
  (ownStep_micro hh (fetchWire_of_rests (hu ▸ hr))).trans hm

theorem ownStep_authSleep_again {s : State} (hh : s.hostRead = false) (hu : s.upc = .authSleep)
    (h : (satInc s.retry).toNat < s.maxRetry.toNat) :
    ownStep s = .next { s with portOpen := true, rxPending := [], retry := satInc s.retry, upc := .authSend } := by
  rw [ownStep_rests hh hu rfl (by rw [microStep, hu])]
  rcases authSleepDone_effect s with ⟨hle, -⟩ | ⟨-, e⟩
  · exact absurd h (Nat.not_lt.2 hle)
  · rw [e]

theorem ownStep_authSleep_exhausted {s : State} (hh : s.hostRead = false) (hu : s.upc = .authSleep)
    (h : s.maxRetry.toNat ≤ (satInc s.retry).toNat) :
    ownStep s = .next
      { s with
        portOpen := true, rxPending := [], retry := satInc s.retry, upc := .halt
        err := ⟨.authExhausted, s.stage, (satInc s.retry).setWidth 32, none⟩
        log := s.log ++ [.eTerminal]
        responses := s.responses ++ [.protocolFatal .authExhausted s.stage ((satInc s.retry).setWidth 32)] } := by
  rw [ownStep_rests hh hu rfl (by rw [microStep, hu])]
  rcases authSleepDone_effect s with ⟨-, e⟩ | ⟨hlt, -⟩
  · rw [e]
  · exact absurd h (Nat.not_le.2 hlt)

theorem ownStep_p2Wait {s : State} (hh : s.hostRead = false) (hu : s.upc = .p2Wait) :
    ownStep s = .next { s with upc := if s.burst.toNat = 33 then .p3Send else .p2Send } :=
  ownStep_rests hh hu rfl (by rw [microStep, hu]; rfl)

theorem ownStep_p4Wait {s : State} (hh : s.hostRead = false) (hu : s.upc = .p4Wait) :
    ownStep s = .next { s with p4Try := 0, upc := .p4Send } := ownStep_rests hh hu rfl (by rw [microStep, hu]; rfl)

theorem ownStep_xSleep {s : State} (hh : s.hostRead = false) (hu : s.upc = .xSleep) :
    ownStep s = .next { s with cycle := satInc s.cycle, upc := .xSend } :=
  ownStep_rests hh hu rfl (by rw [microStep, hu]; rfl)

theorem ownStep_still {s : State} (hh : s.hostRead = false) (hu : s.upc = .idle ∨ s.upc = .halt) :
    ownStep s = .next s := by
  rcases hu with hu | hu <;> exact ownStep_rests hh hu rfl (by rw [microStep, hu])

/-- Where the sequencer rests and no host's `READ` waits, no read is in flight, so time passes. -/
theorem step_rests {s t : State} {rest : List Input} {u : Upc} (hi : s.inputs = .elapse :: rest)
    (hh : s.hostRead = false) (hu : s.upc = u) (hr : rests u = true) (ho : ownStep { s with inputs := rest } = .next t)
    (ht : t.stopPending = false) : step s = .next t := by
  obtain ⟨hread, hcheck⟩ := not_reading_of_rests hr
  have hnone : s.readInFlight = false := State.readInFlight_off hh (hu ▸ hread) (hu ▸ hcheck)
  exact step_of_elapse hi (by simp [State.readReady, hnone]) ho ht

/-- Settles O44: each wait's end, by its bound test. -/
theorem waitsEnd : Obligations.WaitsEnd := by
  intro s rest hi hh hs
  have own := ownStep_p2Wait (s := { s with inputs := rest }) hh
  have still := ownStep_still (s := { s with inputs := rest }) hh
  exact ⟨fun hu hlt => step_rests hi hh hu rfl (ownStep_authSleep_again hh hu hlt) hs,
    fun hu hle => step_rests hi hh hu rfl (ownStep_authSleep_exhausted hh hu hle) hs,
    fun hu h33 => step_rests hi hh hu rfl ((own hu).trans (by rw [if_neg h33])) hs,
    fun hu h33 => step_rests hi hh hu rfl ((own hu).trans (by rw [if_pos h33])) hs,
    fun hu => step_rests hi hh hu rfl (ownStep_p4Wait hh hu) hs,
    fun hu => step_rests hi hh hu rfl (ownStep_xSleep hh hu) hs,
    fun hu => hu.elim (fun hu => step_rests hi hh hu rfl (still (.inl hu)) hs)
      fun hu => step_rests hi hh hu rfl (still (.inr hu)) hs⟩

end Sys2Proof.Machine
end

section
/-!
PROOFS. The sink channels and the clock's samples under every step (42_sequencer.md R220, R221, 20_memory.md R68).
-/

namespace Sys2Proof.Machine

/-- What a move does to the sink channels and the clock's samples. -/
structure SinkMove (s t : State) : Prop where
  exchange : t.sinks ≠ s.sinks → s.upc = .xRead
  atMostThree : t.sinks.length ≤ s.sinks.length + 3
  clock : s.ufc = true → t.clockReads = s.clockReads

/-- A move that emits no record and takes no sample. -/
theorem SinkMove.none {s t : State} (hs : t.sinks = s.sinks) (hc : t.clockReads = s.clockReads) : SinkMove s t :=
  ⟨fun hne => absurd hs hne, by rw [hs]; omega, fun _ => hc⟩

theorem SinkMove.takeStop {s t : State} (h : SinkMove s t) : SinkMove s t.takeStop := by
  rw [State.takeStop_eq]
  exact ⟨h.exchange, h.atMostThree, h.clock⟩

theorem SinkMove.of_takeInput {s t : State} {rest : List Input} (h : SinkMove { s with inputs := rest } t) : SinkMove s t :=
  ⟨h.exchange, h.atMostThree, h.clock⟩

/-- Of the block's own micro-steps only X_READ emits records or takes a sample. -/
theorem OwnMove.sinkMove {s t : State} (h : OwnMove s t) : SinkMove s t := by
  cases h with
  | xRead p hp hh hu =>
    obtain ⟨f, m, n, es, _, ⟨_, _, k, c, hk, hc, e⟩ | ⟨_, _, e⟩⟩ := xReadStep_effect hp s <;> rw [e]
    · refine ⟨fun _ => hu, ?_, hc⟩
      rw [List.length_append]
      omega
    · exact .none rfl rfl
  | hostRead =>
    obtain ⟨f, m, n, es, r, _, e⟩ := s.finishHostRead_effect
    exact .none (by rw [e]) (by rw [e])
  | authRead =>
    obtain ⟨f, m, n, es, _, e | e⟩ := authReadStep_effect s <;> rw [e] <;> exact .none rfl rfl
  | authSleep =>
    obtain ⟨_, e⟩ | ⟨_, e⟩ := authSleepDone_effect s <;> rw [e] <;> exact .none rfl rfl
  | p1Read =>
    obtain ⟨f, m, n, es, _, e | ⟨p, e⟩ | ⟨p, e⟩⟩ := p1ReadStep_effect s <;> rw [e] <;> exact .none rfl rfl
  | p2CheckRead =>
    obtain ⟨f, m, n, es, _, e⟩ := p2CheckRead_effect s
    exact .none (by rw [e]) (by rw [e])
  | p3Read =>
    obtain ⟨f, m, n, es, _, e⟩ := p3ReadStep_effect s
    exact .none (by rw [e]) (by rw [e])
  | p4Read =>
    obtain ⟨f, m, n, es, _, ⟨_, e⟩ | e⟩ := p4ReadStep_effect s <;> rw [e] <;> exact .none rfl rfl
  | rest | authSend | p1Send | p2Send | p2CheckNone | p2Wait | p3Send | p4Wait | p4Send | xSend | xSleep =>
    exact .none rfl rfl

/-- No host command emits a record or takes a sample. -/
theorem HostMove.sinkMove {s t : State} (h : HostMove s t) : SinkMove s t := by
  cases h with
  | responds | image | closePort | write | readWaits | runInit | readData | stopHeld => exact .none rfl rfl
  | fresh | codec | openPort | runAuth => exact .none (by simp) (by simp)
  | readEnds =>
    obtain ⟨f, m, n, es, r, _, e⟩ := s.finishHostRead_effect
    exact .none (by rw [e]) (by rw [e])
  | stop => exact (SinkMove.none rfl rfl).takeStop

/-- Settles O56: every move but a reset is a `SinkMove`. -/
theorem sinksOnlyFromExchange : Obligations.SinksOnlyFromExchange := by
  intro s t hr hstep
  have h : SinkMove s t := by
    cases step_move hstep with
    | reset rest hi => exact absurd hi (hr rest)
    | host c rest t hi _ hm => exact hm.sinkMove.of_takeInput
    | arrive b rest =>
      unfold State.arrive
      split <;> exact .none rfl rfl
    | own rest u hi hm => exact hm.sinkMove.of_takeInput
    | ownStopped rest u hi hm => exact hm.sinkMove.takeStop.of_takeInput
  exact ⟨h.exchange, h.atMostThree, h.clock⟩

end Sys2Proof.Machine
end

section
/-!
PROOFS. Counts against a silent line (42_sequencer.md R194, R201, R206, R207). Each loop is an invariant of the number of rounds
taken, whose last value describes the end; `stepsTo_rounds` is the induction over the rounds.
-/

namespace Sys2Proof.Machine

/-- `N` rounds of `k` steps, each of which carries the invariant on by one. -/
theorem stepsTo_rounds {k N : Nat} {P : Nat → State → Prop}
    (round : ∀ n t, n < N → P n t → ∃ u, stepsTo k t u ∧ P (n + 1) u) {s : State} (h0 : P 0 s) :
    ∃ t, stepsTo (k * N) s t ∧ P N t := by
  induction N with
  | zero => exact ⟨s, rfl, h0⟩
  | succ N ih =>
    obtain ⟨t, hst, ht⟩ := ih fun n t hn => round n t (by omega)
    obtain ⟨u, htu, hu⟩ := round N t (by omega) ht
    exact ⟨u, stepsTo_append hst htu, hu⟩

/-- With nothing from outside, a step is the block's own micro-step, and no stop is held. -/
theorem stepsTo_own {s t : State} (hq : s.quiet) (ho : ownStep s = .next t) (ht : t.stopPending = s.stopPending) :
    stepsTo 1 s t := by
  obtain ⟨hi, -, -, hs⟩ := hq
  exact ⟨t, step_of_nothing hi ho (ht.trans hs), rfl⟩

theorem satInc_toNat_of_lt {w : Nat} {c : BitVec w} (h : c.toNat + 1 < 2 ^ w) : (satInc c).toNat = c.toNat + 1 := by
  rw [satInc_toNat]
  omega

theorem flatten_replicate_succ (n : Nat) (bs : Bytes) :
    (List.replicate (n + 1) bs).flatten = (List.replicate n bs).flatten ++ bs := by
  rw [List.replicate_succ', List.flatten_append, List.flatten_singleton]

/-! ### Authentication (R194) -/

/-- AUTH_SEND sends the frame of the selected user; beside it and `TXF`, nothing depends on which user that is. -/
theorem exec_authRequest {s : State} {user : User} (hu : s.upc = .authSend) (hp : s.portOpen = true)
    (huser : s.user = user) :
    ∃ f, exec (authRequest user) s = .next
      { s with txf := f, tx := s.tx ++ encode (authRequest user), attempts := satInc s.attempts, upc := .authRead } := by
  obtain ⟨plumber, normal, normalAlt, service⟩ := authRequestsSent s hu hp
  cases user with
  | plumber => exact ⟨_, plumber huser⟩
  | normal => exact ⟨_, normal huser⟩
  | normalAlt => exact ⟨_, normalAlt huser⟩
  | service => exact ⟨_, service huser⟩

theorem ownStep_authSend {s : State} (hh : s.hostRead = false) (hu : s.upc = .authSend) (hp : s.portOpen = true) :
    ∃ f, ownStep s = .next
      { s with
        txf := f, tx := s.tx ++ encode (authRequest s.user), attempts := satInc s.attempts, upc := .authRead } := by
  rw [ownStep_row hh (fetchWire_send (i := authRequest s.user) (by rw [fetchRequest, hu]))]
  exact exec_authRequest hu hp rfl

/-- What an identifier frame that meets silence leaves; `f` is the frame. -/
abbrev State.authFailed (s : State) (f : Frame) : State :=
  { s.afterSilence with
    txf := f, tx := s.tx ++ encode (authRequest s.user), attempts := satInc s.attempts, upc := .authSleep
    log := s.log ++ [.eAuthRetry] }

theorem stepsTo_authFailed {s : State} (hq : s.quiet) (hu : s.upc = .authSend) (hp : s.portOpen = true) :
    ∃ f, stepsTo 2 s (s.authFailed f) := by
  have ⟨_, hw, hh, _⟩ := hq
  obtain ⟨f, hsend⟩ := ownStep_authSend hh hu hp
  obtain ⟨silent, -⟩ := ownStep_silence (s := { s with
    txf := f, tx := s.tx ++ encode (authRequest s.user), attempts := satInc s.attempts, upc := .authRead }) hh hp hw
  exact ⟨f, stepsTo_append (stepsTo_own hq hsend rfl) (stepsTo_own hq (silent rfl) rfl)⟩

/-- After `n` rounds from `s`: `n` frames sent and `n` failures counted; then the next round, or the terminal error. -/
structure AuthRounds (s : State) (n : Nat) (t : State) : Prop where
  quiet : t.quiet
  stage : t.stage = .login
  portOpen : t.portOpen = true
  user : t.user = s.user
  maxRetry : t.maxRetry = s.maxRetry
  retry : t.retry.toNat = n
  attempts : t.attempts.toNat = n
  tx : t.tx = s.tx ++ (List.replicate n (encode (authRequest s.user))).flatten
  going : n < max 1 s.maxRetry.toNat → t.upc = .authSend ∧ t.responses = s.responses
  ended : n = max 1 s.maxRetry.toNat → t.upc = .halt ∧ t.err = ⟨.authExhausted, .login, BitVec.ofNat 32 n, none⟩ ∧
    t.responses = s.responses ++ [.protocolFatal .authExhausted .login (BitVec.ofNat 32 n)]

theorem AuthRounds.next {s t : State} {n : Nat} (hn : n < max 1 s.maxRetry.toNat) (h : AuthRounds s n t) :
    ∃ u, stepsTo 3 t u ∧ AuthRounds s (n + 1) u := by
  obtain ⟨hu, hresp⟩ := h.going hn
  obtain ⟨f, hfailed⟩ := stepsTo_authFailed h.quiet hu h.portOpen
  obtain ⟨hi, -, hh, hs⟩ := h.quiet
  have hmax := s.maxRetry.isLt
  have hretry : (satInc t.retry).toNat = n + 1 := by rw [satInc_toNat_of_lt] <;> rw [h.retry]; omega
  have hattempts : (satInc t.attempts).toNat = n + 1 := by rw [satInc_toNat_of_lt] <;> rw [h.attempts]; omega
  have htx : t.tx ++ encode (authRequest t.user) =
      s.tx ++ (List.replicate (n + 1) (encode (authRequest s.user))).flatten := by
    rw [h.tx, h.user, flatten_replicate_succ, List.append_assoc]
  by_cases hlt : n + 1 < s.maxRetry.toNat
  · have hagain := ownStep_authSleep_again (s := t.authFailed f) hh rfl (by
      rwa [← h.maxRetry, ← hretry] at hlt)
    refine ⟨_, stepsTo_append hfailed (stepsTo_own h.quiet hagain rfl), ?_⟩
    exact {
      quiet := ⟨hi, rfl, hh, hs⟩, stage := h.stage, portOpen := rfl, user := h.user, maxRetry := h.maxRetry
      retry := hretry, attempts := hattempts, tx := htx, going := fun _ => ⟨rfl, hresp⟩, ended := by omega }
  · have hlast := ownStep_authSleep_exhausted (s := t.authFailed f) hh rfl (by
      rwa [← h.maxRetry, ← hretry, Nat.not_lt] at hlt)
    have hcount : (satInc t.retry).setWidth 32 = BitVec.ofNat 32 (n + 1) := by rw [← hretry, BitVec.ofNat_toNat]
    refine ⟨_, stepsTo_append hfailed (stepsTo_own h.quiet hlast rfl), ?_⟩
    exact {
      quiet := ⟨hi, rfl, hh, hs⟩, stage := h.stage, portOpen := rfl, user := h.user, maxRetry := h.maxRetry
      retry := hretry, attempts := hattempts, tx := htx, going := by omega
      ended := fun _ => ⟨rfl, by rw [← hcount, ← h.stage]; rfl, by rw [← hcount, ← h.stage, ← hresp]; rfl⟩ }

/-- Settles O58: the rounds up to the bound, from the first frame on. -/
theorem silentAuthCounts : Obligations.SilentAuthCounts := by
  intro s hq hstage hu hp hretry hattempts
  have h0 : AuthRounds s 0 s :=
    { quiet := hq, stage := hstage, portOpen := hp, user := rfl, maxRetry := rfl
      retry := by rw [hretry]; rfl
      attempts := by rw [hattempts]; rfl
      tx := by simp, going := fun _ => ⟨hu, rfl⟩, ended := by omega }
  obtain ⟨t, hsteps, h⟩ := stepsTo_rounds (fun n t => AuthRounds.next) h0
  obtain ⟨hhalt, herr, hresp⟩ := h.ended rfl
  refine ⟨_, t, rfl, hsteps, hhalt, herr, ?_, h.portOpen, h.tx, hresp⟩
  rw [← h.attempts, BitVec.ofNat_toNat, BitVec.setWidth_eq]

/-! ### Phase 2 (R201) -/

/-- The bytes of the M2 probe (43_wire_frames.md R245). -/
def m2Bytes : Bytes := encode .m2Probe

/-- What both phases write when they send it, beside their own counter and position. -/
abbrev State.m2Sent (s : State) : State :=
  { s with
    txf := ⟨some [0x4D, 0x32], some 1, some [0x01], some 0x0081, false, true⟩, tx := s.tx ++ m2Bytes
    attempts := satInc s.attempts }

theorem ownStep_m2Probe {s : State} (hh : s.hostRead = false) (hu : s.upc = .p2Send ∨ s.upc = .p4Send) :
    ownStep s = exec .m2Probe s :=
  ownStep_row hh (fetchWire_send (by rcases hu with hu | hu <;> rw [fetchRequest, hu]))

/-- After `n` rounds of phase 2 from `s`: `n` probes sent and counted, and nothing read. -/
structure ProbeRounds (s : State) (n : Nat) (t : State) : Prop where
  quiet : t.quiet
  portOpen : t.portOpen = true
  burst : t.burst.toNat = n
  rxf : t.rxf = s.rxf
  responses : t.responses = s.responses
  tx : t.tx = s.tx ++ (List.replicate n m2Bytes).flatten
  upc : t.upc = if n = 33 then .p3Send else .p2Send

theorem ProbeRounds.next {s t : State} {n : Nat} (hn : n < 33) (h : ProbeRounds s n t) :
    ∃ u, stepsTo 3 t u ∧ ProbeRounds s (n + 1) u := by
  have hu : t.upc = .p2Send := h.upc.trans (if_neg (by omega))
  obtain ⟨hi, hw, hh, hs⟩ := h.quiet
  obtain ⟨send, -, -⟩ := phaseRequestsSent t h.portOpen
  have hburst : (satInc t.burst).toNat = n + 1 := by rw [satInc_toNat_of_lt] <;> rw [h.burst]; omega
  have hsend := (ownStep_m2Probe hh (.inl hu)).trans (send hu)
  obtain ⟨-, -, check, -⟩ :=
    ownStep_silence (s := { t.m2Sent with burst := satInc t.burst, upc := .p2Check }) hh h.portOpen hw
  have hwait := ownStep_p2Wait (s := { t.m2Sent with burst := satInc t.burst, upc := .p2Wait }) hh rfl
  refine ⟨_, stepsTo_append (stepsTo_own h.quiet hsend rfl)
    (stepsTo_append (stepsTo_own h.quiet (check rfl) rfl) (stepsTo_own h.quiet hwait rfl)), ?_⟩
  exact {
    quiet := ⟨hi, hw, hh, hs⟩, portOpen := h.portOpen, burst := hburst, rxf := h.rxf, responses := h.responses
    tx := by rw [flatten_replicate_succ, ← List.append_assoc, ← h.tx]
    upc := by rw [hburst] }

/-! ### Phase 4 (R206, R207) -/

/-- After `n` attempts of phase 4 from `s`: `n` probes sent and counted; then the next one, or the abort, which completes. -/
structure AttemptRounds (s : State) (n : Nat) (t : State) : Prop where
  quiet : t.quiet
  portOpen : t.portOpen = true
  p4Try : t.p4Try.toNat = n
  err : t.err = s.err
  tx : t.tx = s.tx ++ (List.replicate n m2Bytes).flatten
  going : n < 20 → t.upc = .p4Send ∧ t.log = s.log ∧ t.responses = s.responses
  ended : n = 20 → t.stage = .xchg ∧ t.upc = .idle ∧ t.log = s.log ++ [.wInitAbort] ∧
    t.responses = s.responses ++ [.ok .empty]

theorem AttemptRounds.next {s t : State} {n : Nat} (hn : n < 20) (h : AttemptRounds s n t) :
    ∃ u, stepsTo 2 t u ∧ AttemptRounds s (n + 1) u := by
  obtain ⟨hu, hlog, hresp⟩ := h.going hn
  obtain ⟨hi, hw, hh, hs⟩ := h.quiet
  obtain ⟨-, send, -⟩ := phaseRequestsSent t h.portOpen
  have htry : (satInc t.p4Try).toNat = n + 1 := by rw [satInc_toNat_of_lt] <;> rw [h.p4Try]; omega
  have htx : t.tx ++ m2Bytes = s.tx ++ (List.replicate (n + 1) m2Bytes).flatten := by
    rw [flatten_replicate_succ, ← List.append_assoc, ← h.tx]
  have hsend := stepsTo_own h.quiet ((ownStep_m2Probe hh (.inr hu)).trans (send hu)) rfl
  obtain ⟨-, -, -, -, again, abort, -⟩ :=
    ownStep_silence (s := { t.m2Sent with p4Try := satInc t.p4Try, upc := .p4Read }) hh h.portOpen hw
  by_cases hlast : n + 1 < 20
  · refine ⟨_, stepsTo_append hsend (stepsTo_own h.quiet (again rfl (by exact htry ▸ hlast)) rfl), ?_⟩
    exact {
      quiet := ⟨hi, hw, hh, hs⟩, portOpen := h.portOpen, p4Try := htry, err := h.err, tx := htx
      going := fun _ => ⟨rfl, hlog, hresp⟩, ended := by omega }
  · refine ⟨_, stepsTo_append hsend (stepsTo_own h.quiet (abort rfl (by exact htry ▸ Nat.not_lt.1 hlast)) rfl), ?_⟩
    exact {
      quiet := ⟨hi, hw, hh, hs⟩, portOpen := h.portOpen, p4Try := htry, err := h.err, tx := htx
      going := by omega, ended := fun _ => ⟨rfl, rfl, by rw [← hlog], by rw [← hresp]⟩ }

/-- Settles O59: 33 rounds of three steps; and the step out of P4_WAIT, then twenty of two. -/
theorem silentPhaseCounts : Obligations.SilentPhaseCounts := by
  refine ⟨fun s hq hu hp hb => ?phase2, fun s hq hu hp => ?phase4⟩
  case phase2 =>
    have h0 : ProbeRounds s 0 s :=
      { quiet := hq, portOpen := hp, burst := by rw [hb]; rfl, rxf := rfl, responses := rfl, tx := by simp, upc := hu }
    obtain ⟨t, hsteps, h⟩ := stepsTo_rounds (fun n t => ProbeRounds.next) h0
    exact ⟨t, hsteps, h.upc, BitVec.eq_of_toNat_eq h.burst, h.rxf, h.responses, h.tx⟩
  case phase4 =>
    obtain ⟨hi, hw, hh, hs⟩ := hq
    have hwait := stepsTo_own ⟨hi, hw, hh, hs⟩ (ownStep_p4Wait hh hu) rfl
    have h0 : AttemptRounds s 0 { s with p4Try := 0, upc := .p4Send } :=
      { quiet := ⟨hi, hw, hh, hs⟩, portOpen := hp, p4Try := rfl, err := rfl, tx := by simp
        going := fun _ => ⟨rfl, rfl, rfl⟩, ended := by omega }
    obtain ⟨t, hsteps, h⟩ := stepsTo_rounds (fun n t => AttemptRounds.next) h0
    obtain ⟨hstage, hidle, hlog, hresp⟩ := h.ended rfl
    exact ⟨t, stepsTo_append hwait hsteps, hstage, hidle, BitVec.eq_of_toNat_eq h.p4Try, h.err, hlog, hresp, h.tx⟩

end Sys2Proof.Machine
end

section
/-!
PROOFS. Every request row puts exactly its own bytes on the line (43_wire_frames.md R240 to R250). Its meaning is one `SEND`
behind the two gates of a wire row; the position's own writes after the frame reach neither `TXF` nor the line.
-/

namespace Sys2Proof.Machine

/-- A request row that runs: `k`, what it writes, carries a frame of `SEND`, whose checksum verifies, and the row's bytes. -/
theorem atPosition_sent {i : Instr} {s k t : State} {h d : Bytes} (hrun : atPosition i s (s.onOpenPort k) = .next t)
    (hframe : k.txf = sendFrame h d) (hline : k.tx = s.tx ++ encode i) :
    t.tx = s.tx ++ encode i ∧ t.txf.verifies = true := by
  obtain ⟨-, rfl⟩ := State.onOpenPort_cases (atPosition_cases hrun).2
  exact ⟨hline, hframe ▸ sendFrame_verifies h d⟩

/-- The checksum an echo probe is encoded with is that of its header and the one data byte 01 (R250). -/
theorem echoChecksum_eq (p : Byte) (q : Option Byte) :
    echoChecksum p q = BitVec.ofNat 16 (2 + sumBytes (p :: q.toList)) := by
  cases q <;> simp [echoChecksum, sumBytes, Nat.add_assoc]

/-- `SEND` of a header of one or two bytes with the data byte 01 puts the echo probe of that header on the line (R250). -/
theorem State.send_echoProbe_tx (s : State) (p : Byte) (q : Option Byte) :
    (s.send (p :: q.toList) [1]).tx = s.tx ++ encode (.echoProbe p q) := by
  rw [State.send_probe, encode, echoChecksum_eq]
  simp [Config.frameEnd]

/-- Settles O37: one `SEND` per row. The bytes of a fixed row are computed; an echo probe's are those of its header. -/
theorem requestSendsItsBytes : Obligations.RequestSendsItsBytes := by
  intro i s t hk hrun
  cases i
  case raPlumber | raNormal | raNormalAlt | raService | maProbe | rbAck | m1Req | m2Req | m3Req =>
    exact atPosition_sent hrun rfl rfl
  case m2Probe => exact atPosition_sent (h := [0x4D, 0x32]) (d := [0x01]) hrun (by split <;> rfl) (by split <;> rfl)
  case echoProbe p q => exact atPosition_sent hrun rfl (s.send_echoProbe_tx p q)
  all_goals cases hk

end Sys2Proof.Machine
end

section
/-!
PROOFS. While the host may issue only `STOP` and `RDREG` (60_exceptions.md R280): every other host operation is a direct one,
behind the one gate that refuses it.
-/

namespace Sys2Proof.Machine

theorem State.busy_true {s : State} : s.busy = true ↔ isRunning s.upc = true ∨ s.hostRead = true := by
  simp [State.busy]

/-- Every host operation but `STOP` and `RDREG` is a direct operation: its effect stands behind the gate of R280. -/
theorem exec_direct {i : Instr} (hk : i.kind = .hostOperation) (hstop : i ≠ .stop) (hreg : ∀ idx, i ≠ .rdReg idx) :
    ∃ effect : State → State, ∀ s, exec i s = s.direct (.next (effect s)) := by
  cases i
  case stop => exact absurd rfl hstop
  case rdReg idx => exact absurd rfl (hreg idx)
  case fnew | setHeader | setDataSize | setData | setChecksum | setChecksumV | prepare => exact ⟨_, fun _ => rfl⟩
  case getHeader | getData | getDataSize | getChecksum | getRaw | getHex => exact ⟨_, fun _ => rfl⟩
  case openPort | write | read | closePort | pollRx => exact ⟨_, fun _ => rfl⟩
  case runAuth | runInit | readData => exact ⟨_, fun _ => rfl⟩
  all_goals cases hk

/-- Settles O32: a direct operation does nothing but respond `REFUSED` while the sequencer runs or a host's `READ` is in
flight. -/
theorem busyRefuses : Obligations.BusyRefuses := by
  intro i s hk hstop hreg hbusy
  obtain ⟨effect, hdirect⟩ := exec_direct hk hstop hreg
  calc exec i s = s.direct (.next (effect s)) := hdirect s
    _ = .next (s.respond .refused) := State.direct_busy (State.busy_true.2 hbusy)

end Sys2Proof.Machine
end
